-- ==== Sys2Proof/Word.lean ====
section
/-! DEFINITION. The words of the clock_arbiter block and the shape "one value per channel".

Widths: 10_state.md R10 (registers), 30_encoding.md R62 to R64 (the words IN, CTL7, OUT). -/

namespace Sys2Proof

/-- The input word `IN`: one sample of all inputs (30_encoding.md R62). -/
abbrev InWord := BitVec 79

/-- The low seven bits of `IN`: every input bit a guard can depend on (30_encoding.md R63). -/
abbrev Ctl7 := BitVec 7

/-- The output word `OUT` (30_encoding.md R64). -/
abbrev OutWord := BitVec 11

/-- One analog reading, 0..4095 (00_scope.md R6 `ADC_BITS`). -/
abbrev Reading := BitVec 12

abbrev Byte := BitVec 8

/-- The four rhythm channels (00_scope.md R6 `NCH`). -/
inductive Ch where
  | c0 | c1 | c2 | c3
  deriving DecidableEq, Repr

/-- The channel's number, 0..3. -/
def Ch.num : Ch → Nat
  | .c0 => 0
  | .c1 => 1
  | .c2 => 2
  | .c3 => 3

/-- The channels in rising order. -/
def Ch.all : List Ch := [.c0, .c1, .c2, .c3]

/-- One value for each channel, as plain data. -/
structure PerCh (α : Type) where
  ch0 : α
  ch1 : α
  ch2 : α
  ch3 : α
  deriving DecidableEq, Repr

def PerCh.get {α : Type} (v : PerCh α) : Ch → α
  | .c0 => v.ch0
  | .c1 => v.ch1
  | .c2 => v.ch2
  | .c3 => v.ch3

def PerCh.set {α : Type} (v : PerCh α) (ch : Ch) (x : α) : PerCh α :=
  match ch with
  | .c0 => { v with ch0 := x }
  | .c1 => { v with ch1 := x }
  | .c2 => { v with ch2 := x }
  | .c3 => { v with ch3 := x }

/-- The same value for every channel. -/
def PerCh.const {α : Type} (x : α) : PerCh α := ⟨x, x, x, x⟩

end Sys2Proof
end

