-- ==== Sys2Proof/Syntax.lean ====
section
/-! DEFINITION. The sample record `In`, the output record `Out`, the events of the environment, and
the operations: one constructor of `Instr` for each of the 36 rows of spec/opcode_table.json. -/

namespace Sys2Proof

/-- One sample of every input (20_memory.md R46; fields of `IN`, 30_encoding.md R62). -/
structure In where
  extSel : Bool
  pulse  : Bool
  clear  : Bool
  btn    : PerCh Bool
  tempo  : Reading
  steps  : Reading
  duty   : PerCh Reading
  deriving DecidableEq, Repr

/-- The sample with every field 0 (30_encoding.md R70). -/
def In.zero : In :=
  { extSel := false, pulse := false, clear := false, btn := PerCh.const false,
    tempo := 0#12, steps := 0#12, duty := PerCh.const 0#12 }

/-- The fields of the output word `OUT` (30_encoding.md R64). Bit `p` of `led` is LED line `p`. -/
structure Out where
  led    : BitVec 5
  gate   : PerCh Bool
  clkOut : Bool
  clkDir : Bool
  deriving DecidableEq, Repr

/-- What the environment does to the block (30_encoding.md R61): one pulse of `iter_stb` with the
input word of that iteration, or an assertion and release of `rst` (70_reset_and_hazards.md R170). -/
inductive Event where
  | sample (w : InWord)
  | rst
  deriving DecidableEq, Repr

/-- The operations of the block, one constructor per row of the table (30_encoding.md R66), a
per-channel operation once per channel. ITER and SAMPLE have the sample as operand (40_iteration.md
R80, R81). Every other operation reads the sample that SAMPLE latched and the wires of the iteration
in progress, so it has no operand of its own. -/
inductive Instr where
  | iter (inp : In)
  | sample (inp : In)
  | nsteps
  | caMode
  | caThr
  | caDelay
  | caTickExt
  | caTickInt
  | caEdge
  | caCyc
  | caClkout
  | seClear0
  | seClear1
  | seClear2
  | seClear3
  | seRec0
  | seRec1
  | seRec2
  | seRec3
  | sePrev0
  | sePrev1
  | sePrev2
  | sePrev3
  | seAdv
  | gcThr0
  | gcThr1
  | gcThr2
  | gcThr3
  | gcGate0
  | gcGate1
  | gcGate2
  | gcGate3
  | dmDet
  | dmSel
  | dmEnc
  | out
  deriving DecidableEq, Repr

/-- SE.CLEAR of channel `ch`. -/
def Instr.seClear : Ch → Instr
  | .c0 => .seClear0
  | .c1 => .seClear1
  | .c2 => .seClear2
  | .c3 => .seClear3

/-- SE.REC of channel `ch`. -/
def Instr.seRec : Ch → Instr
  | .c0 => .seRec0
  | .c1 => .seRec1
  | .c2 => .seRec2
  | .c3 => .seRec3

/-- SE.PREV of channel `ch`. -/
def Instr.sePrev : Ch → Instr
  | .c0 => .sePrev0
  | .c1 => .sePrev1
  | .c2 => .sePrev2
  | .c3 => .sePrev3

/-- GC.THR of channel `ch`. -/
def Instr.gcThr : Ch → Instr
  | .c0 => .gcThr0
  | .c1 => .gcThr1
  | .c2 => .gcThr2
  | .c3 => .gcThr3

/-- GC.GATE of channel `ch`. -/
def Instr.gcGate : Ch → Instr
  | .c0 => .gcGate0
  | .c1 => .gcGate1
  | .c2 => .gcGate2
  | .c3 => .gcGate3

end Sys2Proof
end

