-- ==== Sys2Proof/Decode.lean ====
section
/-! DEFINITION. The encodings of 30_encoding.md: the input word and its fields, the output word and
its fields, the CTL7 pattern of every row of the operation table, the decoder from input words (and
from the bytes of a container) to ITER, and the encoder. -/

namespace Sys2Proof

/-- The fields of `IN` (30_encoding.md R62; 40_iteration.md R81). -/
def In.ofWord (w : InWord) : In :=
  { extSel := w.getLsbD 0
    pulse  := w.getLsbD 1
    clear  := w.getLsbD 2
    btn    := ⟨w.getLsbD 3, w.getLsbD 4, w.getLsbD 5, w.getLsbD 6⟩
    tempo  := w.extractLsb' 7 12
    steps  := w.extractLsb' 19 12
    duty   := ⟨w.extractLsb' 31 12, w.extractLsb' 43 12, w.extractLsb' 55 12, w.extractLsb' 67 12⟩ }

/-- A field of a word: `v` with its lowest bit at bit `lo`, every other bit 0. -/
def fieldAt {n : Nat} (m : Nat) (v : BitVec n) (lo : Nat) : BitVec m := v.setWidth m <<< lo

/-- CTL7, `{btn[3], btn[2], btn[1], btn[0], clear, pulse, ext_sel}` (30_encoding.md R63). -/
def In.ctl7 (i : In) : Ctl7 :=
  fieldAt 7 (BitVec.ofBool i.extSel) 0 ||| fieldAt 7 (BitVec.ofBool i.pulse) 1 |||
  fieldAt 7 (BitVec.ofBool i.clear) 2 ||| fieldAt 7 (BitVec.ofBool i.btn.ch0) 3 |||
  fieldAt 7 (BitVec.ofBool i.btn.ch1) 4 ||| fieldAt 7 (BitVec.ofBool i.btn.ch2) 5 |||
  fieldAt 7 (BitVec.ofBool i.btn.ch3) 6

/-- The word `IN` of a sample (30_encoding.md R62). -/
def In.toWord (i : In) : InWord :=
  fieldAt 79 i.ctl7 0 ||| fieldAt 79 i.tempo 7 ||| fieldAt 79 i.steps 19 |||
  fieldAt 79 i.duty.ch0 31 ||| fieldAt 79 i.duty.ch1 43 ||| fieldAt 79 i.duty.ch2 55 |||
  fieldAt 79 i.duty.ch3 67

/-- The word `OUT` of the output levels (30_encoding.md R64; 40_iteration.md R83). -/
def Out.toWord (o : Out) : OutWord :=
  fieldAt 11 o.led 0 ||| fieldAt 11 (BitVec.ofBool o.gate.ch0) 5 |||
  fieldAt 11 (BitVec.ofBool o.gate.ch1) 6 ||| fieldAt 11 (BitVec.ofBool o.gate.ch2) 7 |||
  fieldAt 11 (BitVec.ofBool o.gate.ch3) 8 ||| fieldAt 11 (BitVec.ofBool o.clkOut) 9 |||
  fieldAt 11 (BitVec.ofBool o.clkDir) 10

/-- The fields of `OUT` (30_encoding.md R64). -/
def Out.ofWord (w : OutWord) : Out :=
  { led    := w.extractLsb' 0 5
    gate   := ⟨w.getLsbD 5, w.getLsbD 6, w.getLsbD 7, w.getLsbD 8⟩
    clkOut := w.getLsbD 9
    clkDir := w.getLsbD 10 }

/-- The observable level of the clock pad: `clk_pad` of 30_encoding.md R64. -/
def clkPad (w : OutWord) : Option Bool :=
  if w.getLsbD 10 then some (w.getLsbD 9) else none

/-- The sub-blocks of the operation table (30_encoding.md R66). -/
inductive SubBlock where
  | all
  | clockArbiter
  | stepEngineFsm
  | gateDutyCalculator
  | displayMuxEncoder
  deriving DecidableEq, Repr

/-- One row of the operation table: its place in the iteration, its sub-block, and its CTL7 pattern
as a match and a mask (30_encoding.md R66). -/
structure Row where
  order    : Nat
  subblock : SubBlock
  pattern  : Ctl7
  mask     : Ctl7
  deriving DecidableEq, Repr

/-- The row of each operation (30_encoding.md R66, spec/opcode_table.json). A pattern letter is a
mask bit 0. -/
def Instr.row : Instr → Row
  | .iter _    => ⟨0, .all, 0x00#7, 0x00#7⟩
  | .sample _  => ⟨1, .all, 0x00#7, 0x00#7⟩
  | .nsteps    => ⟨2, .all, 0x00#7, 0x00#7⟩
  | .caMode    => ⟨3, .clockArbiter, 0x00#7, 0x00#7⟩
  | .caThr     => ⟨4, .clockArbiter, 0x00#7, 0x00#7⟩
  | .caDelay   => ⟨5, .clockArbiter, 0x00#7, 0x00#7⟩
  | .caTickExt => ⟨6, .clockArbiter, 0x01#7, 0x01#7⟩
  | .caTickInt => ⟨6, .clockArbiter, 0x00#7, 0x01#7⟩
  | .caEdge    => ⟨7, .clockArbiter, 0x01#7, 0x01#7⟩
  | .caCyc     => ⟨8, .clockArbiter, 0x00#7, 0x00#7⟩
  | .caClkout  => ⟨9, .clockArbiter, 0x00#7, 0x01#7⟩
  | .seClear0  => ⟨10, .stepEngineFsm, 0x0C#7, 0x0C#7⟩
  | .seClear1  => ⟨10, .stepEngineFsm, 0x14#7, 0x14#7⟩
  | .seClear2  => ⟨10, .stepEngineFsm, 0x24#7, 0x24#7⟩
  | .seClear3  => ⟨10, .stepEngineFsm, 0x44#7, 0x44#7⟩
  | .seRec0    => ⟨11, .stepEngineFsm, 0x08#7, 0x0C#7⟩
  | .seRec1    => ⟨11, .stepEngineFsm, 0x10#7, 0x14#7⟩
  | .seRec2    => ⟨11, .stepEngineFsm, 0x20#7, 0x24#7⟩
  | .seRec3    => ⟨11, .stepEngineFsm, 0x40#7, 0x44#7⟩
  | .sePrev0   => ⟨12, .stepEngineFsm, 0x00#7, 0x00#7⟩
  | .sePrev1   => ⟨12, .stepEngineFsm, 0x00#7, 0x00#7⟩
  | .sePrev2   => ⟨12, .stepEngineFsm, 0x00#7, 0x00#7⟩
  | .sePrev3   => ⟨12, .stepEngineFsm, 0x00#7, 0x00#7⟩
  | .seAdv     => ⟨13, .stepEngineFsm, 0x00#7, 0x00#7⟩
  | .gcThr0    => ⟨14, .gateDutyCalculator, 0x00#7, 0x00#7⟩
  | .gcThr1    => ⟨14, .gateDutyCalculator, 0x00#7, 0x00#7⟩
  | .gcThr2    => ⟨14, .gateDutyCalculator, 0x00#7, 0x00#7⟩
  | .gcThr3    => ⟨14, .gateDutyCalculator, 0x00#7, 0x00#7⟩
  | .gcGate0   => ⟨15, .gateDutyCalculator, 0x00#7, 0x00#7⟩
  | .gcGate1   => ⟨15, .gateDutyCalculator, 0x00#7, 0x00#7⟩
  | .gcGate2   => ⟨15, .gateDutyCalculator, 0x00#7, 0x00#7⟩
  | .gcGate3   => ⟨15, .gateDutyCalculator, 0x00#7, 0x00#7⟩
  | .dmDet     => ⟨16, .displayMuxEncoder, 0x00#7, 0x00#7⟩
  | .dmSel     => ⟨17, .displayMuxEncoder, 0x00#7, 0x00#7⟩
  | .dmEnc     => ⟨18, .displayMuxEncoder, 0x00#7, 0x00#7⟩
  | .out       => ⟨19, .all, 0x00#7, 0x00#7⟩

/-- The row's pattern matches the sample's CTL7 bits, so the operation is considered in that
iteration (30_encoding.md R66: the rows are not exclusive). -/
def Instr.considered (i : Instr) (c : Ctl7) : Bool := c &&& i.row.mask == i.row.pattern

/-- The operations of one iteration on the sample `inp`, in the order of 40_iteration.md R80. -/
def operations (inp : In) : List Instr :=
  [.sample inp, .nsteps] ++
  [.caMode, .caThr, .caDelay, .caTickExt, .caTickInt, .caEdge, .caCyc, .caClkout] ++
  [.seClear0, .seClear1, .seClear2, .seClear3, .seRec0, .seRec1, .seRec2, .seRec3] ++
  [.sePrev0, .sePrev1, .sePrev2, .sePrev3, .seAdv] ++
  [.gcThr0, .gcThr1, .gcThr2, .gcThr3, .gcGate0, .gcGate1, .gcGate2, .gcGate3] ++
  [.dmDet, .dmSel, .dmEnc, .out]

/-- The operations whose pattern matches the sample, in order: what the iteration on `inp` considers
(30_encoding.md R66, R67). -/
def consideredOperations (inp : In) : List Instr :=
  (operations inp).filter fun i => i.considered inp.ctl7

/-- What the block does with an input word: one iteration on the sample it carries (40_iteration.md
R80). Total: no word is illegal (30_encoding.md R68). -/
def decode (w : InWord) : Instr := .iter (In.ofWord w)

/-- Why a sequence of bytes is no container of an input word. -/
inductive DecodeError where
  /-- Fewer than the ten bytes of a container. -/
  | shortContainer
  deriving DecidableEq, Repr

/-- The input word in a ten-byte container, least significant byte first, and the bytes after it. The
container's bit above `IN` is ignored (30_encoding.md R68). -/
def decodeBytes : List Byte → Except DecodeError (Instr × List Byte)
  | b0 :: b1 :: b2 :: b3 :: b4 :: b5 :: b6 :: b7 :: b8 :: b9 :: rest =>
    let c : BitVec 80 :=
      fieldAt 80 b0 0 ||| fieldAt 80 b1 8 ||| fieldAt 80 b2 16 ||| fieldAt 80 b3 24 ||| fieldAt 80 b4 32 |||
      fieldAt 80 b5 40 ||| fieldAt 80 b6 48 ||| fieldAt 80 b7 56 ||| fieldAt 80 b8 64 ||| fieldAt 80 b9 72
    .ok (decode (c.setWidth 79), rest)
  | _ => .error .shortContainer

/-- An input word on which the operation is considered: for ITER and SAMPLE the word of their sample,
for every other row its pattern with 0 in each letter position and in the analog fields. -/
def encode (i : Instr) : InWord :=
  match i with
  | .iter inp => inp.toWord
  | .sample inp => inp.toWord
  | .nsteps | .caMode | .caThr | .caDelay | .caTickExt | .caTickInt | .caEdge | .caCyc | .caClkout
  | .seClear0 | .seClear1 | .seClear2 | .seClear3 | .seRec0 | .seRec1 | .seRec2 | .seRec3
  | .sePrev0 | .sePrev1 | .sePrev2 | .sePrev3 | .seAdv
  | .gcThr0 | .gcThr1 | .gcThr2 | .gcThr3 | .gcGate0 | .gcGate1 | .gcGate2 | .gcGate3
  | .dmDet | .dmSel | .dmEnc | .out => i.row.pattern.setWidth 79

/-- The `n` bytes of a number, least significant first. -/
def bytesOf : Nat → Nat → List Byte
  | 0, _ => []
  | n + 1, v => BitVec.ofNat 8 v :: bytesOf n (v / 256)

/-- The ten bytes of the container of an instruction's word, its spare bit 0. -/
def encodeBytes (i : Instr) : List Byte := bytesOf 10 (encode i).toNat

/-- The instruction the decoder reads from a table word: `nbits` bits, every higher bit of the
container 0. More bits than a container holds are refused. -/
def decodeTableWord (nbits w : Nat) : Option Instr :=
  if nbits ≤ 80 then
    match decodeBytes (bytesOf 10 (w % 2 ^ nbits)) with
    | .ok (i, _) => some i
    | .error _   => none
  else none

end Sys2Proof
end

