-- ==== Sys2Proof/Config.lean ====
section
/-! DEFINITION. What is fixed for one block: the constants of 00_scope.md R6, the open parameters
of R7 (as one record that `State` carries, so that every statement about all states holds for every
admissible choice of them), and the one free value of the model, the samples the environment
supplies when no queued event says otherwise. -/

namespace Sys2Proof

/-- `DELAY_BASE` of 00_scope.md R6: `delay = 4224 - tempo_reading`. -/
def delayBase : BitVec 13 := 4224#13

/-- `DISPLAY_HOLD` of 00_scope.md R6. -/
def displayHold : BitVec 11 := 2000#11

/-- `ALLOW_FILL[ch]` of 00_scope.md R6 and 10_state.md R24: channel 0 is the fill channel. -/
def allowFill : Ch → Bool
  | .c0 => true
  | .c1 => false
  | .c2 => false
  | .c3 => false

/-- `P_DELAY` of 00_scope.md R7: recompute `delay` in every iteration (1), or in every 512th (512). -/
inductive PDelay where
  | p1
  | p512
  deriving DecidableEq, Repr

/-- `LED_PERM` of 00_scope.md R7: entry `k` is the LED line that carries bit `k` of the value. -/
structure LedPerm where
  l0 : Fin 5
  l1 : Fin 5
  l2 : Fin 5
  l3 : Fin 5
  l4 : Fin 5
  deriving DecidableEq, Repr

/-- `LED_PERM[k]`. -/
def LedPerm.line (p : LedPerm) : Fin 5 → Fin 5
  | 0 => p.l0
  | 1 => p.l1
  | 2 => p.l2
  | 3 => p.l3
  | 4 => p.l4

/-- `PINMAP` of 00_scope.md R7 and 10_state.md R24: the physical pin of each digital port and the
ADC channel of each analog port. `pulse` and `clk_out` are one pad (30_encoding.md R61). A channel's
`analog_index` is `duty`, its `output_pin` is `gate`. -/
structure PinMap where
  extSel   : Nat
  clear    : Nat
  clockPad : Nat
  btn      : PerCh Nat
  gate     : PerCh Nat
  led0     : Nat
  led1     : Nat
  led2     : Nat
  led3     : Nat
  led4     : Nat
  tempo    : Nat
  steps    : Nat
  duty     : PerCh Nat
  deriving DecidableEq, Repr

/-- The physical pins a binding uses, one entry a digital port. -/
def PinMap.pins (m : PinMap) : List Nat :=
  [m.extSel, m.clear, m.clockPad, m.btn.ch0, m.btn.ch1, m.btn.ch2, m.btn.ch3,
    m.gate.ch0, m.gate.ch1, m.gate.ch2, m.gate.ch3, m.led0, m.led1, m.led2, m.led3, m.led4]

/-- The ADC channels a binding uses, one entry an analog port. -/
def PinMap.adcs (m : PinMap) : List Nat :=
  [m.tempo, m.steps, m.duty.ch0, m.duty.ch1, m.duty.ch2, m.duty.ch3]

/-- The open parameters of one block (00_scope.md R7). `pinMap` is `none` where no binding is given:
the spec gives `PINMAP` no default and no behaviour depends on it. -/
structure Config where
  pDelay  : PDelay
  ledPerm : LedPerm
  pinMap  : Option PinMap
  deriving DecidableEq, Repr

/-- The defaults of 00_scope.md R7: `P_DELAY = 1`, `LED_PERM = [4, 2, 0, 1, 3]`, no `PINMAP`. -/
def Config.default : Config :=
  { pDelay := .p1, ledPerm := ⟨4, 2, 0, 1, 3⟩, pinMap := none }

/-- FREE VALUE (log entry 2): the sample the environment presents in an iteration for which no event
is queued. "The environment may present any value of `In` on any iteration" (00_scope.md R9). The
argument is the number of free samples drawn before. -/
opaque Config.freeSample : Nat → InWord

end Sys2Proof
end

