-- ==== Sys2Proof/Machine/Flags.lean ====
section
/-! DEFINITION. The condition signals of an iteration, 10_state.md R23: each decides whether an
operation acts. -/

namespace Sys2Proof.Machine

/-- `mode_diff`: the select input differs from the mode (41_clock_arbiter.md R90). -/
def modeDiffOf (extSel modeExt : Bool) : Bool := extSel != modeExt

/-- `recompute`: `P_DELAY = 1` or the throttle counter reads 0 (41_clock_arbiter.md R91). -/
def recomputeOf (p : PDelay) (thrCtr : BitVec 9) : Bool := p == .p1 || thrCtr == 0#9

/-- The external tick: a rising edge of the pulse-in line (41_clock_arbiter.md R94). -/
def tickExtOf (pulse pulsePrev : Bool) : Bool := pulse && !pulsePrev

/-- The internal tick: `cyc >= delay`, unsigned (41_clock_arbiter.md R95). -/
def tickIntOf (cyc delay : BitVec 13) : Bool := decide (delay ≤ cyc)

/-- The clock-out level: the first half of the tick window (41_clock_arbiter.md R99). -/
def clkOutOf (cyc : BitVec 13) (half : BitVec 12) : Bool := decide (cyc < half.setWidth 13)

/-- `edge[ch]`: pressed now and not in the previous iteration (42_step_engine_fsm.md R111). -/
def edgeOf (btn pressedPrev : Bool) : Bool := btn && !pressedPrev

/-- The gate level: the step is set and the window is younger than the threshold
(43_gate_duty_calculator.md R126). -/
def gateOf (cell : Bool) (cyc thr : BitVec 13) : Bool := cell && decide (cyc < thr)

/-- `steps_changed` (44_display_mux_encoder.md R135). -/
def stepsChangedOf (ns numStepsPrev : BitVec 6) : Bool := ns != numStepsPrev

end Sys2Proof.Machine
end

