-- ==== Sys2Proof/Machine/Operands.lean ====
section
/-! DEFINITION. The operand derivations of 30_encoding.md R65 and the arithmetic of the counters:
fixed functions of input fields and registers. All numbers are unsigned. -/

namespace Sys2Proof.Machine

/-- `ns = zext_6(steps[11:7]) + 1` (40_iteration.md R82). -/
def nsOf (steps : Reading) : BitVec 6 := (steps.extractLsb' 7 5).setWidth 6 + 1#6

/-- `delay = 4224 - zext_13(tempo)` (41_clock_arbiter.md R92). -/
def delayOf (tempo : Reading) : BitVec 13 := delayBase - tempo.setWidth 13

/-- The half window, `delay >> 1`, 12 bits (41_clock_arbiter.md R99). -/
def halfWindow (delay : BitVec 13) : BitVec 12 := (delay >>> 1).setWidth 12

/-- `max(1, (zext_25(duty) * zext_25(delay)) >> 12)` (43_gate_duty_calculator.md R125). -/
def thrOf (duty : Reading) (delay : BitVec 13) : BitVec 13 :=
  let prod : BitVec 25 := duty.setWidth 25 * delay.setWidth 25
  let q : BitVec 13 := (prod >>> 12).setWidth 13
  if q = 0#13 then 1#13 else q

/-- `sat_13(v) = min(v, 8191)` (00_scope.md section 6). -/
def sat13 (v : Nat) : BitVec 13 := BitVec.ofNat 13 (min v 8191)

/-- The step after `count` when a tick comes, wrapping at `ns` (42_step_engine_fsm.md R113). -/
def nextCount (count : BitVec 5) (ns : BitVec 6) : BitVec 5 :=
  if ns ≤ count.setWidth 6 + 1#6 then 0#5 else count + 1#5

/-- `v` with bit `i` set to `b`: the write of one cell or of one line. -/
def writeBit {n : Nat} (v : BitVec n) (i : Nat) (b : Bool) : BitVec n :=
  if b then v ||| BitVec.twoPow n i else v &&& ~~~(BitVec.twoPow n i)

/-- `for k in 0..4: led[LED_PERM[k]] <- val[k]` (44_display_mux_encoder.md R137). -/
def encodeLed (p : LedPerm) (val led : BitVec 5) : BitVec 5 :=
  [0, 1, 2, 3, 4].foldl (fun (l : BitVec 5) (k : Fin 5) => writeBit l (p.line k).val (val.getLsbD k.val)) led

end Sys2Proof.Machine
end

