-- ==== Sys2Proof/Machine/State.lean ====
section
/-! DEFINITION. The state of the block: the registers and the sequence store of 10_state.md R10, the
word on the output pins, the wires of the iteration in progress, the parameters of 00_scope.md R7,
and the events the environment has in store. -/

namespace Sys2Proof.Machine

/-- The faults of the block: none. "No operation ... can fault" (60_exceptions.md R150), so the type
has no constructor and no step can end in a fault. -/
inductive Fault where
  deriving DecidableEq, Repr

/-- Why the model gives an instruction no meaning. -/
inductive Refusal where
  /-- Raised by an arm of `exec` whose instruction has no meaning yet; safe. No arm raises it. -/
  | notModelled (mnemonic : String)
  deriving DecidableEq, Repr

/-- What a step or a meaning answers. -/
abbrev Result (α : Type) := Host.Outcome α Fault Refusal

/-- The wires of an iteration, 10_state.md R23: values computed and used inside one iteration and not
kept. `inp` is the latched sample; the wires `pressed_now` and `clear` are its fields `btn` and
`clear`. -/
@[ext]
structure Wires where
  inp          : In
  ns           : BitVec 6
  modeDiff     : Bool
  recompute    : Bool
  tick         : Bool
  edge         : PerCh Bool
  thr          : PerCh (BitVec 13)
  stepsChanged : Bool
  val          : BitVec 5
  deriving DecidableEq, Repr

/-- The wires' content between iterations, when they carry no value (log entry 3). -/
def Wires.idle : Wires :=
  { inp := In.zero, ns := 0#6, modeDiff := false, recompute := false, tick := false,
    edge := PerCh.const false, thr := PerCh.const 0#13, stepsChanged := false, val := 0#5 }

/-- The state. Registers of 10_state.md R10, each under the spec's name; then the model's own fields
`cfg`, `out`, `wires`, `pending` and `drawn`. -/
@[ext]
structure State where
  /-- `mode_ext`: true external, false internal (R11). -/
  modeExt : Bool
  /-- `clk_dir`: true the clock pad is an output (R12). -/
  clkDir : Bool
  /-- `pulse_prev`: the pulse-in level of the last external-mode iteration (R13). -/
  pulsePrev : Bool
  /-- `delay` (R14). -/
  delay : BitVec 13
  /-- `cyc`, iterations since the last tick, saturating (R15). -/
  cyc : BitVec 13
  /-- `thr_ctr`, the throttle counter (R16). -/
  thrCtr : BitVec 9
  /-- `count`, the step index (R17). -/
  count : BitVec 5
  /-- `num_steps_prev` (R18). -/
  numStepsPrev : BitVec 6
  /-- `disp_cd`, the display countdown (R19). -/
  dispCd : BitVec 11
  /-- `pressed_prev[ch]` (R20). -/
  pressedPrev : PerCh Bool
  /-- `seq[ch][i]`, the sequence store: bit `i` of channel `ch` (R21; 20_memory.md R40). -/
  seq : PerCh (BitVec 32)
  /-- `gate[ch]` (R22). -/
  gate : PerCh Bool
  /-- `clk_out` (R22). -/
  clkOut : Bool
  /-- `led[p]` is bit `p` (R22). -/
  led : BitVec 5
  /-- The word on the output pins, held from one OUT to the next (40_iteration.md R83). -/
  out : OutWord
  /-- The parameters of this block, fixed for a run (00_scope.md R7). -/
  cfg : Config
  /-- The wires of the iteration in progress, idle between iterations (R23). -/
  wires : Wires
  /-- The environment's events to come, the next one first (30_encoding.md R61). -/
  pending : List Event
  /-- How many free samples the environment has supplied (`Config.freeSample`). -/
  drawn : Nat
  deriving DecidableEq, Repr

/-- The state after reset, 10_state.md R28, with the default parameters and no event queued. -/
def State.reset : State :=
  { modeExt := true, clkDir := false, pulsePrev := false, delay := 4224#13, cyc := 0#13,
    thrCtr := 0#9, count := 0#5, numStepsPrev := 0#6, dispCd := 0#11,
    pressedPrev := PerCh.const false, seq := PerCh.const 0#32, gate := PerCh.const false,
    clkOut := false, led := 0#5, out := 0#11, cfg := Config.default, wires := Wires.idle,
    pending := [], drawn := 0 }

end Sys2Proof.Machine
end

