-- ==== Sys2Proof/Machine/Ops.lean ====
section
/-! DEFINITION. The named operations over the state: one update per register, the sequence store's
two primitives, the wires, the output word, the environment's next event, and reset.

The block has no exception, no trap entry and no trap return (60_exceptions.md R150, R154, R155), so
no operation here takes one. -/

namespace Sys2Proof.Machine

/-! Register updates: each writes the named register and nothing else. -/

/-- CA.MODE writes `mode_ext` and `clk_dir` together (41_clock_arbiter.md R90, R101). -/
def State.setMode (s : State) (ext dir : Bool) : State := { s with modeExt := ext, clkDir := dir }
def State.setPulsePrev (s : State) (v : Bool) : State := { s with pulsePrev := v }
def State.setDelay (s : State) (v : BitVec 13) : State := { s with delay := v }
def State.setCyc (s : State) (v : BitVec 13) : State := { s with cyc := v }
def State.setThrCtr (s : State) (v : BitVec 9) : State := { s with thrCtr := v }
def State.setCount (s : State) (v : BitVec 5) : State := { s with count := v }
def State.setNumStepsPrev (s : State) (v : BitVec 6) : State := { s with numStepsPrev := v }
def State.setDispCd (s : State) (v : BitVec 11) : State := { s with dispCd := v }
def State.setPressedPrev (s : State) (ch : Ch) (v : Bool) : State :=
  { s with pressedPrev := s.pressedPrev.set ch v }
def State.setGate (s : State) (ch : Ch) (v : Bool) : State := { s with gate := s.gate.set ch v }
def State.setClkOut (s : State) (v : Bool) : State := { s with clkOut := v }
def State.setLed (s : State) (v : BitVec 5) : State := { s with led := v }
def State.setOut (s : State) (v : OutWord) : State := { s with out := v }
def State.setWires (s : State) (w : Wires) : State := { s with wires := w }

/-! The sequence store. -/

/-- `MemRead((ch, i), 1)` (20_memory.md R41). Every address is in range (R43). -/
def State.memRead (s : State) (ch : Ch) (i : BitVec 5) : Bool := (s.seq.get ch).getLsbD i.toNat

/-- `MemWrite((ch, i), 1, v)` (20_memory.md R42). -/
def State.memWrite (s : State) (ch : Ch) (i : BitVec 5) (v : Bool) : State :=
  { s with seq := s.seq.set ch (writeBit (s.seq.get ch) i.toNat v) }

/-! Wires, read through the names of 10_state.md R23. -/

/-- `pressed_now[ch]`. -/
def State.pressedNow (s : State) (ch : Ch) : Bool := s.wires.inp.btn.get ch

/-- `clear`. -/
def State.clear (s : State) : Bool := s.wires.inp.clear

/-- An operation of every channel, in rising channel order (40_iteration.md R80). -/
def forCh (f : Ch → State → State) (s : State) : State := f .c3 (f .c2 (f .c1 (f .c0 s)))

/-! The output word. -/

/-- The levels of the output registers (30_encoding.md R64). -/
def State.outFields (s : State) : Out :=
  { led := s.led, gate := s.gate, clkOut := s.clkOut, clkDir := s.clkDir }

/-- The word OUT presents (40_iteration.md R83). -/
def State.outWord (s : State) : OutWord := s.outFields.toWord

/-- The level observed on the clock pad, none while the block does not drive it. -/
def State.clkPad (s : State) : Option Bool := Sys2Proof.clkPad s.out

/-! The environment and reset. -/

/-- The next event and the state with it taken. With no event queued the environment presents the
next free sample (log entry 2). -/
def State.nextEvent (s : State) : Event × State :=
  match s.pending with
  | [] => (.sample (Config.freeSample s.drawn), { s with drawn := s.drawn + 1 })
  | e :: es => (e, { s with pending := es })

/-- Reset, at power-on or by `rst`: every register takes its reset value and the output pins the
reset levels (70_reset_and_hazards.md R170; 10_state.md R28). The parameters and the environment are
no registers of the block and stay. -/
def powerOn (s : State) : State :=
  { State.reset with cfg := s.cfg, pending := s.pending, drawn := s.drawn }

end Sys2Proof.Machine
end

