-- ==== Sys2Proof/Machine/ClockArbiter.lean ====
section
/-! DEFINITION. The clock arbiter sub-block, steps 3 to 9 of an iteration (41_clock_arbiter.md). -/

namespace Sys2Proof.Machine

/-- 41_clock_arbiter.md R90. -/
def caMode (s : State) : State :=
  let ext := s.wires.inp.extSel
  let diff := modeDiffOf ext s.modeExt
  let s := s.setWires { s.wires with modeDiff := diff }
  if diff then s.setMode ext !ext else s

/-- 41_clock_arbiter.md R91. -/
def caThr (s : State) : State :=
  let s := s.setWires { s.wires with recompute := recomputeOf s.cfg.pDelay s.thrCtr }
  s.setThrCtr (s.thrCtr + 1#9)

/-- 41_clock_arbiter.md R92. -/
def caDelay (s : State) : State :=
  if s.wires.recompute then s.setDelay (delayOf s.wires.inp.tempo) else s

/-- 41_clock_arbiter.md R94. -/
def caTickExt (s : State) : State :=
  if s.modeExt then s.setWires { s.wires with tick := tickExtOf s.wires.inp.pulse s.pulsePrev } else s

/-- 41_clock_arbiter.md R95. -/
def caTickInt (s : State) : State :=
  if s.modeExt then s else s.setWires { s.wires with tick := tickIntOf s.cyc s.delay }

/-- 41_clock_arbiter.md R96. -/
def caEdge (s : State) : State :=
  if s.modeExt then s.setPulsePrev s.wires.inp.pulse else s

/-- 41_clock_arbiter.md R97. -/
def caCyc (s : State) : State :=
  if s.wires.tick then s.setCyc 0#13 else s.setCyc (sat13 (s.cyc.toNat + 1))

/-- 41_clock_arbiter.md R99. -/
def caClkout (s : State) : State :=
  if s.modeExt then s else s.setClkOut (clkOutOf s.cyc (halfWindow s.delay))

/-- The sub-block's order (41_clock_arbiter.md R93). Of the two TICK operations the one of the current
mode acts (30_encoding.md R67). -/
def clockArbiter (s : State) : State :=
  caClkout (caCyc (caEdge (caTickInt (caTickExt (caDelay (caThr (caMode s)))))))

/-- CA.MODE. -/
def execCaMode (s : State) : Result State := .next (caMode s)
/-- CA.THR. -/
def execCaThr (s : State) : Result State := .next (caThr s)
/-- CA.DELAY. -/
def execCaDelay (s : State) : Result State := .next (caDelay s)
/-- CA.TICK.EXT. -/
def execCaTickExt (s : State) : Result State := .next (caTickExt s)
/-- CA.TICK.INT. -/
def execCaTickInt (s : State) : Result State := .next (caTickInt s)
/-- CA.EDGE. -/
def execCaEdge (s : State) : Result State := .next (caEdge s)
/-- CA.CYC. -/
def execCaCyc (s : State) : Result State := .next (caCyc s)
/-- CA.CLKOUT. -/
def execCaClkout (s : State) : Result State := .next (caClkout s)

end Sys2Proof.Machine
end

