-- ==== Sys2Proof/Machine/DisplayMux.lean ====
section
/-! DEFINITION. The display multiplexer and LED encoder sub-block, steps 16 to 18 of an iteration
(44_display_mux_encoder.md). -/

namespace Sys2Proof.Machine

/-- 44_display_mux_encoder.md R135. -/
def dmDet (s : State) : State :=
  let changed := stepsChangedOf s.wires.ns s.numStepsPrev
  let s := s.setWires { s.wires with stepsChanged := changed }
  if changed then (s.setDispCd displayHold).setNumStepsPrev s.wires.ns else s

/-- 44_display_mux_encoder.md R136. -/
def dmSel (s : State) : State :=
  if 0#11 < s.dispCd then
    (s.setDispCd (s.dispCd - 1#11)).setWires { s.wires with val := s.wires.ns.setWidth 5 }
  else s.setWires { s.wires with val := s.count }

/-- 44_display_mux_encoder.md R137. -/
def dmEnc (s : State) : State := s.setLed (encodeLed s.cfg.ledPerm s.wires.val s.led)

/-- The sub-block's order (40_iteration.md R80). -/
def displayMux (s : State) : State := dmEnc (dmSel (dmDet s))

/-- DM.DET. -/
def execDmDet (s : State) : Result State := .next (dmDet s)
/-- DM.SEL. -/
def execDmSel (s : State) : Result State := .next (dmSel s)
/-- DM.ENC. -/
def execDmEnc (s : State) : Result State := .next (dmEnc s)

end Sys2Proof.Machine
end

