-- ==== Sys2Proof/Machine/GateCalculator.lean ====
section
/-! DEFINITION. The gate calculator sub-block, steps 14 and 15 of an iteration
(43_gate_duty_calculator.md). -/

namespace Sys2Proof.Machine

/-- 43_gate_duty_calculator.md R125. -/
def gcThr (ch : Ch) (s : State) : State :=
  s.setWires { s.wires with thr := s.wires.thr.set ch (thrOf (s.wires.inp.duty.get ch) s.delay) }

/-- 43_gate_duty_calculator.md R126. -/
def gcGate (ch : Ch) (s : State) : State :=
  s.setGate ch (gateOf (s.memRead ch s.count) s.cyc (s.wires.thr.get ch))

/-- The sub-block's order (40_iteration.md R80). -/
def gateCalculator (s : State) : State := forCh gcGate (forCh gcThr s)

/-- GC.THR of channel 0. -/
def execGcThr0 (s : State) : Result State := .next (gcThr .c0 s)
/-- GC.THR of channel 1. -/
def execGcThr1 (s : State) : Result State := .next (gcThr .c1 s)
/-- GC.THR of channel 2. -/
def execGcThr2 (s : State) : Result State := .next (gcThr .c2 s)
/-- GC.THR of channel 3. -/
def execGcThr3 (s : State) : Result State := .next (gcThr .c3 s)
/-- GC.GATE of channel 0. -/
def execGcGate0 (s : State) : Result State := .next (gcGate .c0 s)
/-- GC.GATE of channel 1. -/
def execGcGate1 (s : State) : Result State := .next (gcGate .c1 s)
/-- GC.GATE of channel 2. -/
def execGcGate2 (s : State) : Result State := .next (gcGate .c2 s)
/-- GC.GATE of channel 3. -/
def execGcGate3 (s : State) : Result State := .next (gcGate .c3 s)

end Sys2Proof.Machine
end

