-- ==== Sys2Proof/Machine/StepEngine.lean ====
section
/-! DEFINITION. The step engine sub-block, steps 10 to 13 of an iteration (42_step_engine_fsm.md). -/

namespace Sys2Proof.Machine

/-- 42_step_engine_fsm.md R110. -/
def seClear (ch : Ch) (s : State) : State :=
  if s.clear && s.pressedNow ch then s.memWrite ch s.count false else s

/-- 42_step_engine_fsm.md R111. -/
def seRec (ch : Ch) (s : State) : State :=
  let edge := edgeOf (s.pressedNow ch) (s.pressedPrev.get ch)
  let s := s.setWires { s.wires with edge := s.wires.edge.set ch edge }
  if s.pressedNow ch && !s.clear && (allowFill ch || edge) then s.memWrite ch s.count true else s

/-- 42_step_engine_fsm.md R112. -/
def sePrev (ch : Ch) (s : State) : State := s.setPressedPrev ch (s.pressedNow ch)

/-- 42_step_engine_fsm.md R113. -/
def seAdv (s : State) : State :=
  if s.wires.tick then s.setCount (nextCount s.count s.wires.ns) else s

/-- The sub-block's order (42_step_engine_fsm.md R114; 40_iteration.md R80). -/
def stepEngine (s : State) : State := seAdv (forCh sePrev (forCh seRec (forCh seClear s)))

/-- SE.CLEAR of channel 0. -/
def execSeClear0 (s : State) : Result State := .next (seClear .c0 s)
/-- SE.CLEAR of channel 1. -/
def execSeClear1 (s : State) : Result State := .next (seClear .c1 s)
/-- SE.CLEAR of channel 2. -/
def execSeClear2 (s : State) : Result State := .next (seClear .c2 s)
/-- SE.CLEAR of channel 3. -/
def execSeClear3 (s : State) : Result State := .next (seClear .c3 s)
/-- SE.REC of channel 0. -/
def execSeRec0 (s : State) : Result State := .next (seRec .c0 s)
/-- SE.REC of channel 1. -/
def execSeRec1 (s : State) : Result State := .next (seRec .c1 s)
/-- SE.REC of channel 2. -/
def execSeRec2 (s : State) : Result State := .next (seRec .c2 s)
/-- SE.REC of channel 3. -/
def execSeRec3 (s : State) : Result State := .next (seRec .c3 s)
/-- SE.PREV of channel 0. -/
def execSePrev0 (s : State) : Result State := .next (sePrev .c0 s)
/-- SE.PREV of channel 1. -/
def execSePrev1 (s : State) : Result State := .next (sePrev .c1 s)
/-- SE.PREV of channel 2. -/
def execSePrev2 (s : State) : Result State := .next (sePrev .c2 s)
/-- SE.PREV of channel 3. -/
def execSePrev3 (s : State) : Result State := .next (sePrev .c3 s)
/-- SE.ADV. -/
def execSeAdv (s : State) : Result State := .next (seAdv s)

end Sys2Proof.Machine
end

