-- ==== Sys2Proof/Machine/Iteration.lean ====
section
/-! DEFINITION. The operations that belong to no sub-block, SAMPLE, NSTEPS and OUT, and the composite
ITER (40_iteration.md). -/

namespace Sys2Proof.Machine

/-- SAMPLE latches the sample; it changes no register (40_iteration.md R81). -/
def sample (inp : In) (s : State) : State := s.setWires { s.wires with inp := inp }

/-- NSTEPS derives the step count of this iteration (40_iteration.md R82). -/
def nsteps (s : State) : State := s.setWires { s.wires with ns := nsOf s.wires.inp.steps }

/-- OUT presents the output word (40_iteration.md R83). -/
def present (s : State) : State := s.setOut s.outWord

/-- The wires are not kept (10_state.md R23). -/
def endIteration (s : State) : State := s.setWires Wires.idle

/-- One loop iteration: the operations in the order of 40_iteration.md R80. -/
def iterate (inp : In) (s : State) : State :=
  endIteration (present (displayMux (gateCalculator (stepEngine (clockArbiter (nsteps (sample inp s)))))))

/-- ITER (40_iteration.md R80). -/
def execIter (inp : In) (s : State) : Result State := .next (iterate inp s)

/-- SAMPLE (40_iteration.md R81). -/
def execSample (inp : In) (s : State) : Result State := .next (sample inp s)

/-- NSTEPS (40_iteration.md R82). -/
def execNsteps (s : State) : Result State := .next (nsteps s)

/-- OUT (40_iteration.md R83). -/
def execOut (s : State) : Result State := .next (present s)

end Sys2Proof.Machine
end

