-- ==== Sys2Proof/Machine/Dispatch.lean ====
section
/-! DEFINITION. The dispatch: one arm per operation of the table. -/

namespace Sys2Proof.Machine

def exec (i : Instr) (s : State) : Host.Outcome State Fault Refusal :=
  match i with
  | .iter inp => Sys2Proof.Machine.execIter inp s
  | .sample inp => Sys2Proof.Machine.execSample inp s
  | .nsteps => Sys2Proof.Machine.execNsteps s
  | .caMode => Sys2Proof.Machine.execCaMode s
  | .caThr => Sys2Proof.Machine.execCaThr s
  | .caDelay => Sys2Proof.Machine.execCaDelay s
  | .caTickExt => Sys2Proof.Machine.execCaTickExt s
  | .caTickInt => Sys2Proof.Machine.execCaTickInt s
  | .caEdge => Sys2Proof.Machine.execCaEdge s
  | .caCyc => Sys2Proof.Machine.execCaCyc s
  | .caClkout => Sys2Proof.Machine.execCaClkout s
  | .seClear0 => Sys2Proof.Machine.execSeClear0 s
  | .seClear1 => Sys2Proof.Machine.execSeClear1 s
  | .seClear2 => Sys2Proof.Machine.execSeClear2 s
  | .seClear3 => Sys2Proof.Machine.execSeClear3 s
  | .seRec0 => Sys2Proof.Machine.execSeRec0 s
  | .seRec1 => Sys2Proof.Machine.execSeRec1 s
  | .seRec2 => Sys2Proof.Machine.execSeRec2 s
  | .seRec3 => Sys2Proof.Machine.execSeRec3 s
  | .sePrev0 => Sys2Proof.Machine.execSePrev0 s
  | .sePrev1 => Sys2Proof.Machine.execSePrev1 s
  | .sePrev2 => Sys2Proof.Machine.execSePrev2 s
  | .sePrev3 => Sys2Proof.Machine.execSePrev3 s
  | .seAdv => Sys2Proof.Machine.execSeAdv s
  | .gcThr0 => Sys2Proof.Machine.execGcThr0 s
  | .gcThr1 => Sys2Proof.Machine.execGcThr1 s
  | .gcThr2 => Sys2Proof.Machine.execGcThr2 s
  | .gcThr3 => Sys2Proof.Machine.execGcThr3 s
  | .gcGate0 => Sys2Proof.Machine.execGcGate0 s
  | .gcGate1 => Sys2Proof.Machine.execGcGate1 s
  | .gcGate2 => Sys2Proof.Machine.execGcGate2 s
  | .gcGate3 => Sys2Proof.Machine.execGcGate3 s
  | .dmDet => Sys2Proof.Machine.execDmDet s
  | .dmSel => Sys2Proof.Machine.execDmSel s
  | .dmEnc => Sys2Proof.Machine.execDmEnc s
  | .out => Sys2Proof.Machine.execOut s

end Sys2Proof.Machine
end

