-- ==== Sys2Proof/Machine/Step.lean ====
section
/-! DEFINITION. One step: the environment's next event is taken; an input word runs one iteration
(40_iteration.md R80), an assertion of `rst` resets the block (70_reset_and_hazards.md R170). -/

namespace Sys2Proof.Machine

def step (s : State) : Host.Outcome State Fault Refusal :=
  match s.nextEvent with
  | (.sample w, s') => exec (decode w) s'
  | (.rst, s') => .next (powerOn s')

/-- `s` with the table word `w` as the input word of the next iteration: it is put before every event
already queued (log entry 1). -/
def State.withFetchWord (s : State) (nbits w : Nat) : State :=
  { s with pending := .sample (BitVec.ofNat 79 (w % 2 ^ nbits)) :: s.pending }

end Sys2Proof.Machine
end

