-- ==== Sys2Proof/Machine/Stimulus.lean ====
section
/-! DEFINITION. The stimulus notation of 30_encoding.md R70 and R71: its abstract syntax, its expansion
into the events of the environment, and the reading of its text, one statement per line. A field left
out of a statement keeps the value of the statement before. -/

namespace Sys2Proof.Machine

/-- The fields of one `ITER` statement; `none` is a field left out (30_encoding.md R70). -/
structure SampleFields where
  e     : Option Bool := none
  p     : Option Bool := none
  k     : Option Bool := none
  btn   : Option (PerCh Bool) := none
  tempo : Option Reading := none
  steps : Option Reading := none
  duty  : Option (PerCh Reading) := none
  deriving DecidableEq, Repr

/-- The statements (30_encoding.md R70, R71). -/
inductive Stmt where
  | iter (f : SampleFields)
  | reset
  | rep (n : Nat) (s : Stmt)
  | hold (n : Nat)
  | press (ch : Ch)
  | release (ch : Ch)
  | pulse (h l : Nat)
  deriving DecidableEq, Repr

/-- The sticky sample after the fields of a statement are applied. -/
def SampleFields.apply (f : SampleFields) (i : In) : In :=
  { extSel := f.e.getD i.extSel, pulse := f.p.getD i.pulse, clear := f.k.getD i.clear,
    btn := f.btn.getD i.btn, tempo := f.tempo.getD i.tempo, steps := f.steps.getD i.steps,
    duty := f.duty.getD i.duty }

/-- One `ITER` statement: one iteration on the resulting sample. -/
def expandIter (f : SampleFields) (i : In) : List Event × In :=
  ([.sample (f.apply i).toWord], f.apply i)

/-- A statement `n` times. -/
def repeatExpand (f : In → List Event × In) : Nat → In → List Event × In
  | 0, i => ([], i)
  | n + 1, i =>
    let (es, i1) := f i
    let (es', i2) := repeatExpand f n i1
    (es ++ es', i2)

/-- The events of one statement and the sticky sample after it. -/
def Stmt.expand : Stmt → In → List Event × In
  | .iter f, i => expandIter f i
  | .reset, _ => ([.rst], In.zero)
  | .rep n s, i => repeatExpand s.expand n i
  | .hold n, i => repeatExpand (expandIter {}) n i
  | .press ch, i => ([], { i with btn := i.btn.set ch true })
  | .release ch, i => ([], { i with btn := i.btn.set ch false })
  | .pulse h l, i =>
    let (es, i1) := repeatExpand (expandIter { p := some true }) h i
    let (es', i2) := repeatExpand (expandIter { p := some false }) l i1
    (es ++ es', i2)

/-- The events of a list of statements, the first one first, and the sticky sample after it. -/
def expandAll : List Stmt → In → List Event × In
  | [], i => ([], i)
  | st :: prog, i =>
    let (es, i1) := st.expand i
    let (es', i2) := expandAll prog i1
    (es ++ es', i2)

/-- The events of a program of stimuli; before the first statement every field is 0. -/
def expandProgram (prog : List Stmt) : List Event := (expandAll prog In.zero).1

/-! The text. A line is cut at `;`, which begins a comment (95_test_vectors.md section 2), and read as
words separated by spaces; an empty line is no statement. -/

/-- The pieces of a text between the places where `sep` holds. -/
def splitAtChars (sep : Char → Bool) : List Char → List (List Char)
  | [] => [[]]
  | c :: cs =>
    let rest := splitAtChars sep cs
    if sep c then [] :: rest
    else match rest with
      | [] => [[c]]
      | w :: ws => (c :: w) :: ws

/-- The words of a line. -/
def wordsOf (line : List Char) : List (List Char) :=
  (splitAtChars (· == ' ') (line.takeWhile (· != ';'))).filter (· ≠ [])

/-- A decimal number; leading zeros are read (DESIGN CHOICE, log entry 12). -/
def readNat (w : List Char) : Option Nat :=
  if w ≠ [] ∧ w.all Char.isDigit then some (w.foldl (fun n c => 10 * n + (c.toNat - 48)) 0) else none

/-- A decimal number that is a reading. -/
def readReading (w : List Char) : Option Reading :=
  match readNat w with
  | some n => if n ≤ 4095 then some (BitVec.ofNat 12 n) else none
  | none => none

def readBit : List Char → Option Bool
  | ['0'] => some false
  | ['1'] => some true
  | _ => none

/-- The four digits of `btn=`, channel 3 first. -/
def readBtn : List Char → Option (PerCh Bool)
  | [d, c, b, a] => do
    return ⟨← readBit [a], ← readBit [b], ← readBit [c], ← readBit [d]⟩
  | _ => none

/-- The four readings of `duty=`, channel 0 first. -/
def readDuty (w : List Char) : Option (PerCh Reading) :=
  match splitAtChars (· == ',') w with
  | [n0, n1, n2, n3] => do
    return ⟨← readReading n0, ← readReading n1, ← readReading n2, ← readReading n3⟩
  | _ => none

/-- One `name=value` word of an `ITER` statement, put into the fields read so far. DESIGN CHOICE (log
entry 12): of a field that one statement gives twice the last value counts; the grammar of R70 shows each
field once and says nothing of a repeat. The fields may stand in any order, as the programs of
95_test_vectors.md write them. -/
def readField (f : SampleFields) (w : List Char) : Option SampleFields :=
  match splitAtChars (· == '=') w with
  | [name, v] =>
    if name = ['e'] then (readBit v).map fun x => { f with e := some x }
    else if name = ['p'] then (readBit v).map fun x => { f with p := some x }
    else if name = ['k'] then (readBit v).map fun x => { f with k := some x }
    else if name = ['b', 't', 'n'] then (readBtn v).map fun x => { f with btn := some x }
    else if name = ['t', 'e', 'm', 'p', 'o'] then (readReading v).map fun x => { f with tempo := some x }
    else if name = ['s', 't', 'e', 'p', 's'] then (readReading v).map fun x => { f with steps := some x }
    else if name = ['d', 'u', 't', 'y'] then (readDuty v).map fun x => { f with duty := some x }
    else none
  | _ => none

def readChannel : List Char → Option Ch
  | ['0'] => some .c0
  | ['1'] => some .c1
  | ['2'] => some .c2
  | ['3'] => some .c3
  | _ => none

/-- The words of one statement (30_encoding.md R70, R71). -/
def readStmt : List (List Char) → Option Stmt
  | w :: n :: ws =>
    if w = ['I', 'T', 'E', 'R'] then ((n :: ws).foldlM readField {}).map .iter
    else if w = ['R', 'E', 'P'] then do return .rep (← readNat n) (← readStmt ws)
    else if w = ['H', 'O', 'L', 'D'] ∧ ws = [] then (readNat n).map .hold
    else if w = ['P', 'R', 'E', 'S', 'S'] ∧ ws = [] then (readChannel n).map .press
    else if w = ['R', 'E', 'L', 'E', 'A', 'S', 'E'] ∧ ws = [] then (readChannel n).map .release
    else if w = ['P', 'U', 'L', 'S', 'E'] then
      match ws with
      | [l] => do return .pulse (← readNat n) (← readNat l)
      | _ => none
    else none
  | [w] =>
    if w = ['I', 'T', 'E', 'R'] then some (.iter {})
    else if w = ['R', 'E', 'S', 'E', 'T'] then some .reset
    else none
  | [] => none

/-- A program: the statements of its lines, none where a line is no statement. -/
def readProgram (text : List Char) : Option (List Stmt) :=
  (((splitAtChars (· == '\n') text).map wordsOf).filter (· ≠ [])).mapM readStmt

end Sys2Proof.Machine
end

