-- ==== Sys2Proof/WellFormed.lean ====
section
/-! DEFINITION. What is well formed. The spec makes every input word legal (30_encoding.md R68), so
an instruction is always well formed; the checks that can fail are on the wider container an input
word may be carried in, and on the open parameters of 00_scope.md R7. -/

namespace Sys2Proof

/-- Every operation with every operand is legal: "all 79 bits are defined fields and every value is a
legal sample" (30_encoding.md R68), and no operation has an illegal form (60_exceptions.md R150). -/
def Instr.wf : Instr → Bool
  | .iter _ | .sample _ => true
  | .nsteps | .caMode | .caThr | .caDelay | .caTickExt | .caTickInt | .caEdge | .caCyc | .caClkout => true
  | .seClear0 | .seClear1 | .seClear2 | .seClear3 => true
  | .seRec0 | .seRec1 | .seRec2 | .seRec3 => true
  | .sePrev0 | .sePrev1 | .sePrev2 | .sePrev3 => true
  | .seAdv => true
  | .gcThr0 | .gcThr1 | .gcThr2 | .gcThr3 => true
  | .gcGate0 | .gcGate1 | .gcGate2 | .gcGate3 => true
  | .dmDet | .dmSel | .dmEnc | .out => true

/-- A ten-byte container of an input word is well formed when its bit above `IN` is 0: "the extra
upper bits are ignored by the block and should be written as 0" (30_encoding.md R68). -/
def containerWf (c : BitVec 80) : Bool := !c.getLsbD 79

/-- An admissible `LED_PERM`: a bijection on 0..4, not the identity, with entry 0 equal to 4
(44_display_mux_encoder.md R140). -/
def LedPerm.wf (p : LedPerm) : Bool :=
  decide ([p.l0, p.l1, p.l2, p.l3, p.l4].Nodup) && decide (p ≠ ⟨0, 1, 2, 3, 4⟩) && decide (p.l0 = 4)

/-- An admissible `PINMAP`: injective on pins and on ADC channels (00_scope.md R7). -/
def PinMap.wf (m : PinMap) : Bool := decide m.pins.Nodup && decide m.adcs.Nodup

/-- Admissible parameters (00_scope.md R7). -/
def Config.wf (c : Config) : Bool :=
  c.ledPerm.wf && match c.pinMap with
    | none => true
    | some m => m.wf

end Sys2Proof
end

