-- ==== Sys2Proof/Safety.lean ====
section
/-! DEFINITION. The terms claims are stated in: the invariants of 10_state.md R26 as a predicate on
states, a run of input words, a run of operations, and a safe step. -/

namespace Sys2Proof.Machine

/-- The parameters are admissible (00_scope.md R7). -/
abbrev State.CfgOk (s : State) : Prop := s.cfg.wf = true

/-- The register invariants of 10_state.md R26 that hold in the middle of an iteration too, the first one
included; `cyc <= 8191` and `count <= 31` hold by width. -/
abbrev State.RegsOk (s : State) : Prop :=
  s.clkDir = !s.modeExt ∧ 129 ≤ s.delay.toNat ∧ s.delay.toNat ≤ 4224 ∧
    s.numStepsPrev.toNat ≤ 32 ∧ s.dispCd.toNat ≤ 2000

/-- No iteration has run since reset: every register, wire and pin is as reset leaves it. -/
abbrev State.Fresh (s : State) : Prop := s = powerOn s

/-- Between iterations the pins show the output registers (40_iteration.md R83) and no wire carries a
value (10_state.md R23). `num_steps_prev = 0` is found only before the first iteration, where every
register still has its reset value, and after a tick iteration, which is the only one that ends with
`cyc = 0`, `count` is below the step count (10_state.md R26; 30_encoding.md R69). -/
abbrev State.AtBoundary (s : State) : Prop :=
  s.out = s.outWord ∧ s.wires = Wires.idle ∧ (s.numStepsPrev = 0#6 → s.Fresh) ∧
    (s.cyc = 0#13 → ¬ s.Fresh → s.count.toNat < s.numStepsPrev.toNat)

/-- A well-formed state: what 30_encoding.md R69 asks claims to be stated over. -/
abbrev State.Inv (s : State) : Prop := s.CfgOk ∧ s.RegsOk ∧ s.AtBoundary

/-- `s` with these samples as the environment's next events. -/
def State.withSamples (s : State) (inps : List In) : State :=
  { s with pending := inps.map (fun i => Event.sample i.toWord) ++ s.pending }

/-- `n` steps of the machine. -/
def runSteps (n : Nat) (s : State) : Result State := Host.Core.run Sys2Proof.core n s

/-- The iterations on a list of samples, the first one first, one step of the machine each. -/
def runIterations (inps : List In) (s : State) : Result State := runSteps inps.length (s.withSamples inps)

/-- The LED lines show `v`: line `LED_PERM[k]` carries bit `k` (44_display_mux_encoder.md R137). -/
def State.shows (s : State) (v : Nat) : Prop :=
  ∀ k : Fin 5, s.led.getLsbD (s.cfg.ledPerm.line k).val = v.testBit k.val

/-- The wire `tick` of the iteration on `inp` from `s` (41_clock_arbiter.md R94, R95). -/
def tickOf (inp : In) (s : State) : Bool := (clockArbiter (nsteps (sample inp s))).wires.tick

/-- Operations one after another, each seeing the writes of those before (20_memory.md R52). -/
def runOperations : List Instr → State → Result State
  | [], s => .next s
  | i :: is, s =>
    match exec i s with
    | .next t => runOperations is t
    | .fault f => .fault f
    | .refused r => .refused r

/-- A safe step: the machine goes on. -/
def Safe (s : State) : Prop := ∃ t, step s = .next t

end Sys2Proof.Machine
end

