-- ==== Sys2Proof/Safety/Reference.lean ====
section
/-! DEFINITION. The unbounded reference machine: one iteration written again over natural numbers, with
a cycle counter that has no upper bound, as the source describes it (41_clock_arbiter.md R98;
92_eei_decisions.md D10, D20). Statements compare the model with it; the model does not use it. -/

namespace Sys2Proof.Machine

/-- The registers over natural numbers. `shown` is the value on the LED lines before the permutation. -/
structure Ref where
  ext       : Bool
  dir       : Bool
  pulsePrev : Bool
  delay     : Nat
  cyc       : Nat
  thrCtr    : Nat
  count     : Nat
  nsPrev    : Nat
  hold      : Nat
  pressed   : Ch → Bool
  cell      : Ch → Nat → Bool
  gate      : Ch → Bool
  clkOut    : Bool
  shown     : Nat

/-- One iteration of the reference machine (40_iteration.md R80). -/
def Ref.iterate (cfg : Config) (inp : In) (r : Ref) : Ref :=
  let ns := inp.steps.toNat / 128 + 1
  let dir := if inp.extSel = r.ext then r.dir else !inp.extSel
  let delay := if cfg.pDelay = .p1 ∨ r.thrCtr = 0 then 4224 - inp.tempo.toNat else r.delay
  let tick := if inp.extSel then inp.pulse && !r.pulsePrev else decide (delay ≤ r.cyc)
  let cyc := if tick then 0 else r.cyc + 1
  let cell := fun ch i =>
    if i = r.count ∧ inp.btn.get ch = true then
      if inp.clear then false
      else if allowFill ch || !r.pressed ch then true
      else r.cell ch i
    else r.cell ch i
  let count := if tick then (if ns ≤ r.count + 1 then 0 else r.count + 1) else r.count
  let thr := fun ch => max 1 ((inp.duty.get ch).toNat * delay / 4096)
  let hold := if ns = r.nsPrev then r.hold else 2000
  { ext := inp.extSel
    dir := dir
    pulsePrev := if inp.extSel then inp.pulse else r.pulsePrev
    delay := delay
    cyc := cyc
    thrCtr := (r.thrCtr + 1) % 512
    count := count
    nsPrev := ns
    hold := hold - 1
    pressed := fun ch => inp.btn.get ch
    cell := cell
    gate := fun ch => cell ch count && decide (cyc < thr ch)
    clkOut := if inp.extSel then r.clkOut else decide (cyc < delay / 2)
    shown := if 0 < hold then ns % 32 else count }

/-- The iterations on a list of samples, the first one first. -/
def Ref.run (cfg : Config) (inps : List In) (r : Ref) : Ref :=
  inps.foldl (fun r inp => Ref.iterate cfg inp r) r

/-- A state stands for a reference state: equal numbers, but for the counter, which saturates at 8191
where the reference counts on, and the LED lines, which carry the shown value's bits as the
permutation says. -/
structure Refines (s : State) (r : Ref) : Prop where
  ext       : r.ext = s.modeExt
  dir       : r.dir = s.clkDir
  pulsePrev : r.pulsePrev = s.pulsePrev
  delay     : r.delay = s.delay.toNat
  cyc       : min r.cyc 8191 = s.cyc.toNat
  thrCtr    : r.thrCtr = s.thrCtr.toNat
  count     : r.count = s.count.toNat
  nsPrev    : r.nsPrev = s.numStepsPrev.toNat
  hold      : r.hold = s.dispCd.toNat
  pressed   : ∀ ch, r.pressed ch = s.pressedPrev.get ch
  cell      : ∀ ch (i : BitVec 5), r.cell ch i.toNat = s.memRead ch i
  gate      : ∀ ch, r.gate ch = s.gate.get ch
  clkOut    : r.clkOut = s.clkOut
  shown     : s.shows r.shown

/-- The reference machine after reset (10_state.md R28). -/
def Ref.reset : Ref :=
  { ext := true, dir := false, pulsePrev := false, delay := 4224, cyc := 0, thrCtr := 0, count := 0,
    nsPrev := 0, hold := 0, pressed := fun _ => false, cell := fun _ _ => false, gate := fun _ => false,
    clkOut := false, shown := 0 }

end Sys2Proof.Machine
end

