-- ==== Sys2Proof/Certificates/Slice0/Obligations.lean ====
section
/-! DEFINITION. The statements for the provers. Each is about every state, every sample and, where the
parameters of 00_scope.md R7 matter, every admissible choice of them. -/

open Sys2Proof Sys2Proof.Machine

/-! Encodings. -/

/-- 30_encoding.md section 3 (format IN; the layout is the spec's decision D4): no bit of a sample is
dropped in either direction, in the word and in the bytes of its container. -/
def Obligations.InputWordsDecodeAndEncodeAgree : Prop :=
  (∀ inp : In, decode (encode (.iter inp)) = .iter inp) ∧
  (∀ w : InWord, encode (decode w) = w) ∧
  (∀ (inp : In) (rest : List Byte),
    decodeBytes (encodeBytes (.iter inp) ++ rest) = .ok (.iter inp, rest))

/-- 30_encoding.md section 3 (format OUT; decision D4). -/
def Obligations.OutputWordsRoundTrip : Prop :=
  (∀ o : Out, Out.ofWord o.toWord = o) ∧ (∀ w : OutWord, (Out.ofWord w).toWord = w) ∧
  (∀ o : Out, clkPad o.toWord = if o.clkDir then some o.clkOut else none)

/-- The words V-EN-5, V-EN-9, V-EN-11, V-EN-12 of 95_test_vectors.md section 3.1, written out. -/
def Obligations.VectorWordsDecodeToTheirSamples : Prop :=
  decode 0x00000000000000000008#79 = .iter { In.zero with btn := ⟨true, false, false, false⟩ } ∧
  decode 0x0000000007FF80000000#79 = .iter { In.zero with duty := ⟨4095#12, 0#12, 0#12, 0#12⟩ } ∧
  decode 0x00000000000000000009#79 =
    .iter { In.zero with extSel := true, btn := ⟨true, false, false, false⟩ } ∧
  decode 0x7FF8004002668C064C2B#79 =
    .iter { extSel := true, pulse := true, clear := false, btn := ⟨true, false, true, false⟩,
            tempo := 3224#12, steps := 384#12, duty := ⟨1229#12, 2048#12, 0#12, 4095#12⟩ }

/-- 30_encoding.md section 5: which operations a sample selects. -/
def Obligations.PatternsSelectOperations : Prop :=
  ∀ inp : In,
    (Instr.caTickExt.considered inp.ctl7 = inp.extSel) ∧
    (Instr.caEdge.considered inp.ctl7 = inp.extSel) ∧
    (Instr.caTickInt.considered inp.ctl7 = !inp.extSel) ∧
    (Instr.caClkout.considered inp.ctl7 = !inp.extSel) ∧
    (∀ ch, (Instr.seClear ch).considered inp.ctl7 = (inp.clear && inp.btn.get ch)) ∧
    (∀ ch, (Instr.seRec ch).considered inp.ctl7 = (!inp.clear && inp.btn.get ch)) ∧
    (∀ i ∈ operations inp, i ∉ [.caTickExt, .caEdge, .caTickInt, .caClkout] →
      (∀ ch, i ≠ .seClear ch ∧ i ≠ .seRec ch) → i.considered inp.ctl7 = true)

/-! The step. -/

/-- A step takes the environment's next event: an input word runs what it decodes to, `rst` leaves the
reset state; with no event queued the environment's free sample is the word (log entry 2). -/
def Obligations.StepRunsTheDecodedWord : Prop :=
  (∀ (s : State) (w : InWord) (es : List Event), s.pending = .sample w :: es →
    step s = exec (decode w) { s with pending := es }) ∧
  (∀ s : State, s.pending = [] →
    step s = exec (decode (Config.freeSample s.drawn)) { s with drawn := s.drawn + 1 })

/-- 70_reset_and_hazards.md section 1 (the port `rst` is the spec's decision D15). -/
def Obligations.ResetEventLosesTheWholeState : Prop :=
  ∀ (s : State) (es : List Event), s.pending = .rst :: es →
    step s = .next { State.reset with cfg := s.cfg, pending := es, drawn := s.drawn }

/-- A table word placed by `withFetchWord` is run by the very next step, as the decoder reads it. -/
def Obligations.StepRunsThePlacedTableWord : Prop :=
  ∀ (s : State) (nbits w : Nat) (i : Instr), decodeTableWord nbits w = some i →
    step (s.withFetchWord nbits w) = exec i s

/-- 60_exceptions.md section 1, 40_iteration.md section 2: no step and no operation stops. -/
def Obligations.NothingEverStops : Prop :=
  (∀ s : State, Safe s) ∧ (∀ (i : Instr) (s : State), ∃ t, exec i s = .next t)

/-! Whole iterations. -/

/-- 40_iteration.md section 1, 30_encoding.md section 5: ITER is the operations whose pattern matches
the sample, one after another in the table's order, with the wires dropped at the end. -/
def Obligations.IterationIsItsConsideredOperations : Prop :=
  ∀ (inp : In) (s : State), ∃ t,
    runOperations (consideredOperations inp) s = .next t ∧ exec (.iter inp) s = .next (endIteration t)

/-- 10_state.md section 4, 30_encoding.md section 6: the well-formedness predicate is kept by every step,
whatever the environment does (that the wires are idle is log entry 3). -/
def Obligations.StepKeepsTheInvariants : Prop :=
  ∀ s t : State, s.Inv → step s = .next t → t.Inv

/-- 10_state.md sections 4 and 5. -/
def Obligations.ResetMeetsTheInvariants : Prop :=
  State.reset.Inv ∧ ∀ s : State, s.CfgOk → (powerOn s).Inv

/-- 10_state.md section 5: the reset values. `count = 0` and `seq = 0` are the source's; the others are
the spec's decision D14. -/
def Obligations.ResetLeavesTheListedValues : Prop :=
  State.reset.modeExt = true ∧ State.reset.clkDir = false ∧ State.reset.pulsePrev = false ∧
  State.reset.delay.toNat = 4224 ∧ State.reset.cyc.toNat = 0 ∧ State.reset.thrCtr.toNat = 0 ∧
  State.reset.count.toNat = 0 ∧ State.reset.numStepsPrev.toNat = 0 ∧ State.reset.dispCd.toNat = 0 ∧
  (∀ ch, State.reset.pressedPrev.get ch = false) ∧ (∀ ch i, State.reset.memRead ch i = false) ∧
  (∀ ch, State.reset.gate.get ch = false) ∧ State.reset.clkOut = false ∧ State.reset.led = 0#5 ∧
  State.reset.clkPad = none

/-- 10_state.md section 4: what holds at the end of every iteration (that `delay` follows the knob in
external mode too is decision D8). -/
def Obligations.IterationEndsAsListed : Prop :=
  ∀ (inp : In) (s : State), ∃ t, exec (.iter inp) s = .next t ∧
    t.modeExt = inp.extSel ∧
    (s.clkDir = !s.modeExt → t.clkDir = !t.modeExt) ∧
    t.numStepsPrev.toNat = inp.steps.toNat / 128 + 1 ∧
    (∀ ch, t.pressedPrev.get ch = inp.btn.get ch) ∧
    (s.cfg.pDelay = .p1 → t.delay.toNat = 4224 - inp.tempo.toNat) ∧
    (tickOf inp s = true → t.cyc.toNat = 0 ∧ t.count.toNat < inp.steps.toNat / 128 + 1) ∧
    (tickOf inp s = false → t.count = s.count)

/-- 10_state.md R10, R23: nothing but the registers survives from one iteration to the next; what the
wires held before has no effect. -/
def Obligations.IterationIgnoresEarlierWires : Prop :=
  ∀ (inp : In) (s : State) (w : Wires),
    exec (.iter inp) { s with wires := w } = exec (.iter inp) s

/-- 92_eei_decisions.md D18: no operation depends on `PINMAP`. -/
def Obligations.PinMapHasNoEffect : Prop :=
  ∀ (i : Instr) (s : State) (m : Option PinMap), ∃ t, exec i s = .next t ∧
    exec i { s with cfg := { s.cfg with pinMap := m } } =
      .next { t with cfg := { s.cfg with pinMap := m } } ∧ t.cfg = s.cfg

/-- 10_state.md section 2, "No rule reads an output register back": whatever the output registers and the
pins held before, an iteration leaves the same state, but for the clock level that an external-mode
iteration does not write and no pin shows, which is bit 9 of the output word. -/
def Obligations.OutputRegistersAreNotReadBack : Prop :=
  ∀ (inp : In) (s : State) (g : PerCh Bool) (c : Bool) (l : BitVec 5) (o : OutWord), s.CfgOk → s.RegsOk →
    ∃ t u, exec (.iter inp) s = .next t ∧
      exec (.iter inp) { s with gate := g, clkOut := c, led := l, out := o } = .next u ∧
      { u with clkOut := t.clkOut, out := t.out } = t ∧
      (∀ k : Fin 11, k ≠ 9 → u.out.getLsbD k.val = t.out.getLsbD k.val) ∧ u.clkPad = t.clkPad ∧
      (inp.extSel = false → u = t)

/-- 40_iteration.md section 1, 42_step_engine_fsm.md section 1: what a channel's cells, gate and
button memory become depends on nothing of another channel. -/
def Obligations.ChannelsAreIndependent : Prop :=
  ∀ (ch : Ch) (a b : In) (s s' : State),
    a.extSel = b.extSel → a.pulse = b.pulse → a.clear = b.clear → a.tempo = b.tempo →
    a.steps = b.steps → a.btn.get ch = b.btn.get ch → a.duty.get ch = b.duty.get ch →
    s.pulsePrev = s'.pulsePrev → s.delay = s'.delay → s.cyc = s'.cyc → s.thrCtr = s'.thrCtr →
    s.count = s'.count → s.cfg = s'.cfg → s.pressedPrev.get ch = s'.pressedPrev.get ch →
    s.seq.get ch = s'.seq.get ch →
    ∃ t t', exec (.iter a) s = .next t ∧ exec (.iter b) s' = .next t' ∧
      t.seq.get ch = t'.seq.get ch ∧ t.gate.get ch = t'.gate.get ch ∧
      t.pressedPrev.get ch = t'.pressedPrev.get ch ∧ t.count = t'.count

/-- 42_step_engine_fsm.md section 4, 20_memory.md section 1: an iteration changes no cell but the
current step's, and only of a channel whose button is pressed. -/
def Obligations.OnlyPressedChannelsCurrentStepIsWritten : Prop :=
  ∀ (inp : In) (s : State), ∃ t, exec (.iter inp) s = .next t ∧
    ∀ (ch : Ch) (i : BitVec 5), i ≠ s.count ∨ inp.btn.get ch = false → t.memRead ch i = s.memRead ch i

/-- 42_step_engine_fsm.md section 4: clear beats record, on every channel. -/
def Obligations.ClearOverridesRecording : Prop :=
  ∀ (inp : In) (s : State), inp.clear = true → ∃ t, exec (.iter inp) s = .next t ∧
    ∀ (ch : Ch) (i : BitVec 5),
      t.memRead ch i = (s.memRead ch i && !(inp.btn.get ch && decide (i = s.count)))

/-- 43_gate_duty_calculator.md, consequences: in a tick iteration a gate equals the new step's cell (that
the gate sees the new values is decision D26). -/
def Obligations.GateInATickIterationIsTheNewCell : Prop :=
  ∀ (inp : In) (s : State), tickOf inp s = true → ∃ t, exec (.iter inp) s = .next t ∧
    ∀ ch, t.gate.get ch = t.memRead ch t.count

/-- 70_reset_and_hazards.md section 1: the first iteration after reset, whatever the sample and the
admissible parameters. The spec's own decisions in it: the reset values (D14, log entry 7), a step count of
32 shown as 0 (D16, log entry 18), the phase of the throttle and `delay` in external mode (D7, D8, log
entry 14), the clock level (D6, D9, D13, log entry 15), a gate that sees the new values (D26, log
entry 19). -/
def Obligations.FirstIterationAfterReset : Prop :=
  ∀ (cfg : Config) (inp : In), cfg.wf = true →
    ∃ t, exec (.iter inp) { State.reset with cfg := cfg } = .next t ∧
    t.numStepsPrev.toNat = inp.steps.toNat / 128 + 1 ∧ t.dispCd.toNat = 1999 ∧
    t.shows ((inp.steps.toNat / 128 + 1) % 32) ∧
    t.delay.toNat = 4224 - inp.tempo.toNat ∧
    (inp.extSel = false → t.clkPad = some true ∧ t.cyc.toNat = 1 ∧ t.count.toNat = 0) ∧
    (inp.extSel = true → t.clkPad = none ∧ t.cyc.toNat = (if inp.pulse then 0 else 1) ∧
      t.count.toNat = (if inp.pulse = true ∧ 128 ≤ inp.steps.toNat then 1 else 0)) ∧
    (∀ ch i, t.memRead ch i = (inp.btn.get ch && !inp.clear && decide (i = 0#5))) ∧
    (∀ ch, t.gate.get ch = (inp.btn.get ch && !inp.clear && decide (t.count.toNat = 0) &&
      decide (t.cyc.toNat < max 1 ((inp.duty.get ch).toNat * (4224 - inp.tempo.toNat) / 4096))))

/-- 41_clock_arbiter.md R99, R101, R103 (`delay >> 1` and the undriven level are decisions D9, D13; the
updated counter is D6): the clock pad is driven exactly in the iterations that run in internal mode, with
the level of the first half window. -/
def Obligations.ClockPadIsDrivenExactlyInInternalMode : Prop :=
  ∀ (inp : In) (s : State), s.clkDir = !s.modeExt → ∃ t, exec (.iter inp) s = .next t ∧
    t.clkPad = if inp.extSel then none else some (decide (t.cyc.toNat < t.delay.toNat / 2))

/-- 20_memory.md R42: the store's write primitive, and who uses it, where and when. -/
def Obligations.OnlyClearAndRecordWriteTheStore : Prop :=
  (∀ (s : State) (ch : Ch) (i : BitVec 5) (v : Bool), (s.memWrite ch i v).memRead ch i = v ∧
    ∀ ch' i', ch' ≠ ch ∨ i' ≠ i → (s.memWrite ch i v).memRead ch' i' = s.memRead ch' i') ∧
  (∀ (ch : Ch) (s : State), ∃ t, exec (.seClear ch) s = .next t ∧
    (t = s ∨ s.wires.inp.btn.get ch = true ∧ t = s.memWrite ch s.count false)) ∧
  (∀ (ch : Ch) (s : State), ∃ t, exec (.seRec ch) s = .next t ∧
    (t.seq = s.seq ∨ s.wires.inp.btn.get ch = true ∧ t.seq = (s.memWrite ch s.count true).seq)) ∧
  (∀ (i : Instr) (s : State), (∀ inp, i ≠ .iter inp) → (∀ ch, i ≠ .seClear ch ∧ i ≠ .seRec ch) →
    ∃ t, exec i s = .next t ∧ t.seq = s.seq) ∧
  (∀ (inp : In) (s : State), ∃ t, exec (.iter inp) s = .next t ∧
    ∀ ch i, t.memRead ch i ≠ s.memRead ch i → i = s.count ∧ inp.btn.get ch = true)

/-- 10_state.md section 1, the column "written by" of the list of registers: no operation writes a
register of another's. -/
def Obligations.EveryRegisterHasItsWriters : Prop :=
  ∀ (i : Instr) (s : State), (∀ inp, i ≠ .iter inp) → ∃ t, exec i s = .next t ∧
    (i ≠ .caMode → t.modeExt = s.modeExt ∧ t.clkDir = s.clkDir) ∧
    (i ≠ .caEdge → t.pulsePrev = s.pulsePrev) ∧ (i ≠ .caDelay → t.delay = s.delay) ∧
    (i ≠ .caCyc → t.cyc = s.cyc) ∧ (i ≠ .caThr → t.thrCtr = s.thrCtr) ∧
    (i ≠ .seAdv → t.count = s.count) ∧ (i ≠ .dmDet → t.numStepsPrev = s.numStepsPrev) ∧
    (i ≠ .dmDet → i ≠ .dmSel → t.dispCd = s.dispCd) ∧
    (∀ ch, i ≠ .sePrev ch → t.pressedPrev.get ch = s.pressedPrev.get ch) ∧
    (∀ ch, i ≠ .seClear ch → i ≠ .seRec ch → t.seq.get ch = s.seq.get ch) ∧
    (∀ ch, i ≠ .gcGate ch → t.gate.get ch = s.gate.get ch) ∧
    (i ≠ .caClkout → t.clkOut = s.clkOut) ∧ (i ≠ .dmEnc → t.led = s.led) ∧
    (i ≠ .out → t.out = s.out) ∧ t.cfg = s.cfg ∧ t.pending = s.pending ∧ t.drawn = s.drawn

/-- 41_clock_arbiter.md R91: with `P_DELAY = 1` the throttle counter influences nothing. -/
def Obligations.ThrottleCounterIdleWhenEveryIterationRecomputes : Prop :=
  ∀ (inp : In) (s : State) (x : BitVec 9), s.cfg.pDelay = .p1 → ∃ t, exec (.iter inp) s = .next t ∧
    exec (.iter inp) { s with thrCtr := x } = .next { t with thrCtr := x + 1#9 }

/-- 41_clock_arbiter.md R95, R96 (that the edge memory is left alone in internal mode is decision D11):
in internal mode the pulse-in level has no effect. -/
def Obligations.PulseIgnoredInInternalMode : Prop :=
  ∀ (inp : In) (s : State) (p : Bool), inp.extSel = false →
    exec (.iter { inp with pulse := p }) s = exec (.iter inp) s

/-- 40_iteration.md R82, 44_display_mux_encoder.md R135: the low seven bits of the step-count knob
never matter. -/
def Obligations.StepKnobActsInBandsOf128 : Prop :=
  ∀ (inp : In) (s : State) (a b : Reading), a.toNat / 128 = b.toNat / 128 →
    exec (.iter { inp with steps := a }) s = exec (.iter { inp with steps := b }) s

/-! Runs. -/

/-- 41_clock_arbiter.md section 5 (saturation is unobservable), 92_eei_decisions.md D20: one iteration
of the model is one iteration of the reference machine with the unbounded counter. -/
def Obligations.IterationRefinesTheUnboundedMachine : Prop :=
  ∀ (inp : In) (s : State) (r : Ref), s.Inv → Refines s r →
    ∃ t, exec (.iter inp) s = .next t ∧ Refines t (Ref.iterate s.cfg inp r)

/-- The same for every run from reset, of every length, on every sequence of samples and for all
admissible parameters (40_iteration.md section 2). -/
def Obligations.RunsFromResetRefineTheUnboundedMachine : Prop :=
  ∀ (cfg : Config) (inps : List In), cfg.wf = true →
    ∃ t, runIterations inps { State.reset with cfg := cfg } = .next t ∧
      Refines t (Ref.run cfg inps Ref.reset) ∧ t.Inv ∧ t.pending = []

/-- 30_encoding.md R69, 10_state.md R26: whatever events the environment sends after reset, the listed bit
patterns are never found between two steps, and `num_steps_prev = 0` only while every register still has
its reset value (the reset values are the spec's decision D14). -/
def Obligations.ListedStatesAreNeverReached : Prop :=
  ∀ (cfg : Config) (es : List Event) (n : Nat), cfg.wf = true →
    ∃ t, runSteps n { State.reset with cfg := cfg, pending := es } = .next t ∧
      t.modeExt ≠ t.clkDir ∧ ¬ t.delay.toNat < 129 ∧ ¬ 4224 < t.delay.toNat ∧
      ¬ 32 < t.numStepsPrev.toNat ∧ (t.numStepsPrev.toNat = 0 → t = powerOn t) ∧ ¬ 2000 < t.dispCd.toNat ∧
      (∀ inp : In, ∃ u, exec (.iter inp) t = .next u ∧ 1 ≤ u.numStepsPrev.toNat)

/-- 41_clock_arbiter.md section 7: in internal mode with a constant tempo, ticks are `delay + 1`
iterations apart, and the clock-out line is high in the first `delay >> 1` iterations of the window.
The run begins after a tick iteration, which is iteration 0 of the window. -/
def Obligations.InternalTickPeriodIsDelayPlusOne : Prop :=
  ∀ (s : State) (inp : In), s.cfg.pDelay = .p1 → inp.extSel = false → s.cyc = 0#13 →
    (∀ n, 0 < n → n ≤ 4224 - inp.tempo.toNat →
      ∃ t, runIterations (List.replicate n inp) s = .next t ∧ t.cyc.toNat = n ∧ t.count = s.count ∧
        t.clkOut = decide (n < (4224 - inp.tempo.toNat) / 2)) ∧
    (∃ t, runIterations (List.replicate (4224 - inp.tempo.toNat + 1) inp) s = .next t ∧
      t.cyc.toNat = 0 ∧ t.clkOut = true ∧
      t.count.toNat = if inp.steps.toNat / 128 + 1 ≤ s.count.toNat + 1 then 0 else s.count.toNat + 1)

/-- 42_step_engine_fsm.md R113, R117: `j` external pulses, each one sample high and one low, take `count`
`j` steps round the cycle 0 .. ns - 1. -/
def Obligations.PulsesWalkTheStepsAndWrap : Prop :=
  ∀ (s : State) (hi lo : In) (j : Nat), hi.extSel = true → hi.pulse = true → lo.extSel = true →
    lo.pulse = false → s.pulsePrev = false → s.count.toNat < hi.steps.toNat / 128 + 1 →
    ∃ t, runIterations (List.replicate j [hi, lo]).flatten s = .next t ∧
      t.count.toNat = (s.count.toNat + j) % (hi.steps.toNat / 128 + 1) ∧ t.pulsePrev = false

/-- 44_display_mux_encoder.md, consequences: after a change of the step count the display shows it for
exactly 2000 iterations, whatever else happens in them, and the step index from then on. -/
def Obligations.DisplayHoldsExactly2000Iterations : Prop :=
  ∀ (s : State) (k : Nat) (inps : List In), s.CfgOk → inps ≠ [] →
    (∀ inp ∈ inps, inp.steps.toNat / 128 + 1 = k) → k ≠ s.numStepsPrev.toNat →
    ∃ t, runIterations inps s = .next t ∧
      (inps.length ≤ 2000 → t.shows (k % 32)) ∧ (2000 < inps.length → t.shows t.count.toNat)

/-- 42_step_engine_fsm.md section 4: a held button smears on a fill channel and sets only the step of
the press edge on the others. -/
def Obligations.HeldButtonSmearsOnlyOnFillChannels : Prop :=
  ∀ (ch : Ch) (s : State) (inps post : List In), post ≠ [] →
    (∀ inp ∈ inps ++ post, inp.btn.get ch = true ∧ inp.clear = false) →
    ∃ u t, runIterations inps s = .next u ∧ runIterations (inps ++ post) s = .next t ∧
      (allowFill ch = true → t.memRead ch u.count = true) ∧
      (allowFill ch = false → s.pressedPrev.get ch = false →
        t.memRead ch s.count = true ∧ ∀ i, i ≠ s.count → t.memRead ch i = s.memRead ch i)

/-- 41_clock_arbiter.md R91 (the phase is decision D7, that external mode is no exception D8): with `P_DELAY = 512`, `delay` follows the tempo
of the iterations numbered 0, 512, 1024, … from reset and no other. -/
def Obligations.ThrottledDelayFollowsEvery512thSample : Prop :=
  ∀ (cfg : Config) (inps : List In), cfg.pDelay = .p512 → inps ≠ [] →
    ∃ t inp, runIterations inps { State.reset with cfg := cfg } = .next t ∧
      inps[(inps.length - 1) / 512 * 512]? = some inp ∧ t.delay.toNat = 4224 - inp.tempo.toNat ∧
      t.thrCtr.toNat = inps.length % 512

/-! The operations, each alone: its result, and that it changes nothing else. -/

/-- 40_iteration.md R81 (one sample an iteration is decision D2): SAMPLE latches the fields of the word
and changes no register. -/
def Obligations.SampleLatchesTheFieldsOfTheWord : Prop :=
  ∀ (w : InWord) (s : State), ∃ t, exec (.sample (In.ofWord w)) s = .next t ∧
    t.wires.inp.extSel = w.toNat.testBit 0 ∧ t.wires.inp.pulse = w.toNat.testBit 1 ∧
    t.wires.inp.clear = w.toNat.testBit 2 ∧
    (∀ ch, t.wires.inp.btn.get ch = w.toNat.testBit (3 + ch.num)) ∧
    t.wires.inp.tempo.toNat = w.toNat / 2 ^ 7 % 4096 ∧
    t.wires.inp.steps.toNat = w.toNat / 2 ^ 19 % 4096 ∧
    (∀ ch, (t.wires.inp.duty.get ch).toNat = w.toNat / 2 ^ (31 + 12 * ch.num) % 4096) ∧
    { t with wires := { t.wires with inp := s.wires.inp } } = s

/-- 40_iteration.md R82. -/
def Obligations.NstepsIsTheKnobShiftedAndIncremented : Prop :=
  ∀ s : State, ∃ t, exec .nsteps s = .next t ∧
    t.wires.ns.toNat = s.wires.inp.steps.toNat / 128 + 1 ∧
    1 ≤ t.wires.ns.toNat ∧ t.wires.ns.toNat ≤ 32 ∧
    { t with wires := { t.wires with ns := s.wires.ns } } = s

/-- 41_clock_arbiter.md R90. -/
def Obligations.ModeFollowsTheSelectInput : Prop :=
  ∀ s : State, ∃ t, exec .caMode s = .next t ∧
    t.modeExt = s.wires.inp.extSel ∧
    (s.wires.inp.extSel ≠ s.modeExt → t.clkDir = !s.wires.inp.extSel ∧ t.wires.modeDiff = true) ∧
    (s.wires.inp.extSel = s.modeExt → t.clkDir = s.clkDir ∧ t.wires.modeDiff = false) ∧
    { t with modeExt := s.modeExt, clkDir := s.clkDir,
             wires := { t.wires with modeDiff := s.wires.modeDiff } } = s

/-- 41_clock_arbiter.md R91 (decision D7). -/
def Obligations.ThrottleCounterCountsModulo512 : Prop :=
  ∀ s : State, ∃ t, exec .caThr s = .next t ∧
    (t.wires.recompute = true ↔ s.cfg.pDelay = .p1 ∨ s.thrCtr.toNat = 0) ∧
    t.thrCtr.toNat = (s.thrCtr.toNat + 1) % 512 ∧
    { t with thrCtr := s.thrCtr, wires := { t.wires with recompute := s.wires.recompute } } = s

/-- 41_clock_arbiter.md R92 (that it acts in both clock modes is decision D8). -/
def Obligations.DelayIsTheBaseLessTheTempo : Prop :=
  ∀ s : State, ∃ t, exec .caDelay s = .next t ∧
    t.delay.toNat = (if s.wires.recompute then 4224 - s.wires.inp.tempo.toNat else s.delay.toNat) ∧
    { t with delay := s.delay } = s

/-- 41_clock_arbiter.md R94. -/
def Obligations.ExternalTickOnlyOnARisingEdge : Prop :=
  ∀ s : State, ∃ t, exec .caTickExt s = .next t ∧
    (s.modeExt = true →
      (t.wires.tick = true ↔ s.wires.inp.pulse = true ∧ s.pulsePrev = false)) ∧
    (s.modeExt = false → t.wires.tick = s.wires.tick) ∧
    { t with wires := { t.wires with tick := s.wires.tick } } = s ∧
    Instr.caTickExt.considered s.wires.inp.ctl7 = s.wires.inp.extSel

/-- 41_clock_arbiter.md R95. -/
def Obligations.InternalTickWhenTheCounterReachesDelay : Prop :=
  ∀ s : State, ∃ t, exec .caTickInt s = .next t ∧
    (s.modeExt = false → (t.wires.tick = true ↔ s.delay.toNat ≤ s.cyc.toNat)) ∧
    (s.modeExt = true → t.wires.tick = s.wires.tick) ∧
    { t with wires := { t.wires with tick := s.wires.tick } } = s ∧
    Instr.caTickInt.considered s.wires.inp.ctl7 = !s.wires.inp.extSel

/-- 41_clock_arbiter.md R96 (scoped to external mode by decision D11). -/
def Obligations.EdgeMemoryFollowsThePulseInExternalMode : Prop :=
  ∀ s : State, ∃ t, exec .caEdge s = .next t ∧
    t.pulsePrev = (if s.modeExt then s.wires.inp.pulse else s.pulsePrev) ∧
    { t with pulsePrev := s.pulsePrev } = s

/-- 41_clock_arbiter.md R97 (saturation is decision D10). -/
def Obligations.TickClearsTheCycleCounter : Prop :=
  ∀ s : State, ∃ t, exec .caCyc s = .next t ∧
    t.cyc.toNat = (if s.wires.tick then 0 else min (s.cyc.toNat + 1) 8191) ∧
    { t with cyc := s.cyc } = s

/-- 41_clock_arbiter.md R99 (decisions D6, D9, D13). -/
def Obligations.ClockOutIsHighInTheFirstHalf : Prop :=
  ∀ s : State, ∃ t, exec .caClkout s = .next t ∧
    t.clkOut = (if s.modeExt then s.clkOut else decide (s.cyc.toNat < s.delay.toNat / 2)) ∧
    { t with clkOut := s.clkOut } = s

/-- 42_step_engine_fsm.md R110, for each of the four channels. That this overrides recording: under a held
clear the channel's SE.REC is not considered, and running it after SE.CLEAR leaves the cell erased. -/
def Obligations.ClearErasesTheCurrentStep : Prop :=
  ∀ (ch : Ch) (s : State), ∃ t, exec (.seClear ch) s = .next t ∧
    (s.wires.inp.clear = true ∧ s.wires.inp.btn.get ch = true → t.memRead ch s.count = false) ∧
    (¬ (s.wires.inp.clear = true ∧ s.wires.inp.btn.get ch = true) → t = s) ∧
    (∀ ch' i, ch' ≠ ch ∨ i ≠ s.count → t.memRead ch' i = s.memRead ch' i) ∧
    { t with seq := s.seq } = s ∧
    ((Instr.seClear ch).considered s.wires.inp.ctl7 = (s.wires.inp.clear && s.wires.inp.btn.get ch)) ∧
    (s.wires.inp.clear = true → (Instr.seRec ch).considered s.wires.inp.ctl7 = false) ∧
    (s.wires.inp.clear = true ∧ s.wires.inp.btn.get ch = true →
      ∃ u, exec (.seRec ch) t = .next u ∧ u.memRead ch s.count = false)

/-- 42_step_engine_fsm.md R111, for each of the four channels. -/
def Obligations.RecordSetsTheCurrentStep : Prop :=
  ∀ (ch : Ch) (s : State), ∃ t, exec (.seRec ch) s = .next t ∧
    (t.wires.edge.get ch = true ↔ s.wires.inp.btn.get ch = true ∧ s.pressedPrev.get ch = false) ∧
    (s.wires.inp.btn.get ch = true ∧ s.wires.inp.clear = false ∧
        (ch = .c0 ∨ s.pressedPrev.get ch = false) → t.memRead ch s.count = true) ∧
    (¬ (s.wires.inp.btn.get ch = true ∧ s.wires.inp.clear = false ∧
        (ch = .c0 ∨ s.pressedPrev.get ch = false)) → t.seq = s.seq) ∧
    (∀ ch' i, ch' ≠ ch ∨ i ≠ s.count → t.memRead ch' i = s.memRead ch' i) ∧
    (∀ ch', ch' ≠ ch → t.wires.edge.get ch' = s.wires.edge.get ch') ∧
    { t with seq := s.seq, wires := { t.wires with edge := s.wires.edge } } = s ∧
    ((Instr.seRec ch).considered s.wires.inp.ctl7 = (!s.wires.inp.clear && s.wires.inp.btn.get ch))

/-- 42_step_engine_fsm.md R112, for each of the four channels. -/
def Obligations.ButtonMemoryFollowsTheButton : Prop :=
  ∀ (ch : Ch) (s : State), ∃ t, exec (.sePrev ch) s = .next t ∧
    t.pressedPrev.get ch = s.wires.inp.btn.get ch ∧
    (∀ ch', ch' ≠ ch → t.pressedPrev.get ch' = s.pressedPrev.get ch') ∧
    { t with pressedPrev := s.pressedPrev } = s

/-- 42_step_engine_fsm.md R113. The wire `ns` is at most 32 (40_iteration.md R82). -/
def Obligations.TickAdvancesTheStepAndWraps : Prop :=
  ∀ s : State, s.wires.ns.toNat ≤ 32 → ∃ t, exec .seAdv s = .next t ∧
    (s.wires.tick = false → t.count = s.count) ∧
    (s.wires.tick = true → t.count.toNat =
      if s.wires.ns.toNat ≤ s.count.toNat + 1 then 0 else s.count.toNat + 1) ∧
    { t with count := s.count } = s

/-- 43_gate_duty_calculator.md R125, for each of the four channels. -/
def Obligations.ThresholdIsDutyTimesDelayClamped : Prop :=
  ∀ (ch : Ch) (s : State), ∃ t, exec (.gcThr ch) s = .next t ∧
    (t.wires.thr.get ch).toNat =
      (if (s.wires.inp.duty.get ch).toNat * s.delay.toNat / 4096 = 0 then 1
       else (s.wires.inp.duty.get ch).toNat * s.delay.toNat / 4096) ∧
    (∀ ch', ch' ≠ ch → t.wires.thr.get ch' = s.wires.thr.get ch') ∧
    { t with wires := { t.wires with thr := s.wires.thr } } = s

/-- 43_gate_duty_calculator.md, consequences: a gate never fills a window. -/
def Obligations.ThresholdNeverFillsTheWindow : Prop :=
  ∀ (ch : Ch) (s : State), s.RegsOk → ∃ t, exec (.gcThr ch) s = .next t ∧
    1 ≤ (t.wires.thr.get ch).toNat ∧ (t.wires.thr.get ch).toNat + 1 ≤ s.delay.toNat ∧
    (t.wires.thr.get ch).toNat ≤ 4222

/-- 43_gate_duty_calculator.md R126, for each of the four channels. -/
def Obligations.GateIsTheCellWithinTheThreshold : Prop :=
  ∀ (ch : Ch) (s : State), ∃ t, exec (.gcGate ch) s = .next t ∧
    (t.gate.get ch = true ↔
      s.memRead ch s.count = true ∧ s.cyc.toNat < (s.wires.thr.get ch).toNat) ∧
    (∀ ch', ch' ≠ ch → t.gate.get ch' = s.gate.get ch') ∧
    { t with gate := s.gate } = s

/-- 44_display_mux_encoder.md R135. -/
def Obligations.StepCountChangeStartsTheHold : Prop :=
  ∀ s : State, ∃ t, exec .dmDet s = .next t ∧
    (t.wires.stepsChanged = true ↔ s.wires.ns ≠ s.numStepsPrev) ∧
    (s.wires.ns ≠ s.numStepsPrev → t.dispCd.toNat = 2000 ∧ t.numStepsPrev = s.wires.ns) ∧
    (s.wires.ns = s.numStepsPrev → t.dispCd = s.dispCd ∧ t.numStepsPrev = s.numStepsPrev) ∧
    { t with dispCd := s.dispCd, numStepsPrev := s.numStepsPrev,
             wires := { t.wires with stepsChanged := s.wires.stepsChanged } } = s

/-- 44_display_mux_encoder.md R136 (that a step count of 32 shows as 0 is decision D16). -/
def Obligations.DisplaySelectsCountOrStepCount : Prop :=
  ∀ s : State, ∃ t, exec .dmSel s = .next t ∧
    (0 < s.dispCd.toNat →
      t.dispCd.toNat + 1 = s.dispCd.toNat ∧ t.wires.val.toNat = s.wires.ns.toNat % 32) ∧
    (s.dispCd.toNat = 0 → t.dispCd.toNat = 0 ∧ t.wires.val = s.count) ∧
    { t with dispCd := s.dispCd, wires := { t.wires with val := s.wires.val } } = s

/-- 44_display_mux_encoder.md R137, for every admissible `LED_PERM`. -/
def Obligations.LedLinesCarryThePermutedValue : Prop :=
  ∀ s : State, s.CfgOk → ∃ t, exec .dmEnc s = .next t ∧ t.shows s.wires.val.toNat ∧
    (∀ p : Fin 5, ∃ k : Fin 5, s.cfg.ledPerm.line k = p) ∧ { t with led := s.led } = s

/-- 40_iteration.md R83 (decisions D4, D19). -/
def Obligations.OutPresentsTheOutputRegisters : Prop :=
  ∀ s : State, ∃ t, exec .out s = .next t ∧
    (∀ p : Fin 5, t.out.toNat.testBit p.val = s.led.toNat.testBit p.val) ∧
    (∀ ch, t.out.toNat.testBit (5 + ch.num) = s.gate.get ch) ∧
    t.out.toNat.testBit 9 = s.clkOut ∧ t.out.toNat.testBit 10 = s.clkDir ∧
    { t with out := s.out } = s

/-! The stimulus notation. -/

/-- 30_encoding.md section 7 (the notation is decision D22): what every statement, and a list of
statements, expands to, and the sticky sample after it. -/
def Obligations.StimulusStatementsExpand : Prop :=
  (∀ (f : SampleFields) (i : In), ∃ j : In, (Stmt.iter f).expand i = ([.sample j.toWord], j) ∧
    j.extSel = f.e.getD i.extSel ∧ j.pulse = f.p.getD i.pulse ∧ j.clear = f.k.getD i.clear ∧
    j.btn = f.btn.getD i.btn ∧ j.tempo = f.tempo.getD i.tempo ∧ j.steps = f.steps.getD i.steps ∧
    j.duty = f.duty.getD i.duty) ∧
  (∀ i : In, Stmt.reset.expand i = ([.rst], In.zero)) ∧
  (∀ (s : Stmt) (i : In), (Stmt.rep 0 s).expand i = ([], i)) ∧
  (∀ (n : Nat) (s : Stmt) (i : In), (Stmt.rep (n + 1) s).expand i =
    ((s.expand i).1 ++ ((Stmt.rep n s).expand (s.expand i).2).1, ((Stmt.rep n s).expand (s.expand i).2).2)) ∧
  (∀ (n : Nat) (i : In), (Stmt.hold n).expand i = (List.replicate n (.sample i.toWord), i)) ∧
  (∀ (ch : Ch) (i : In), (Stmt.press ch).expand i = ([], { i with btn := i.btn.set ch true })) ∧
  (∀ (ch : Ch) (i : In), (Stmt.release ch).expand i = ([], { i with btn := i.btn.set ch false })) ∧
  (∀ (h l : Nat) (i : In), (Stmt.pulse h l).expand i =
    (List.replicate h (.sample { i with pulse := true }.toWord) ++
     List.replicate l (.sample { i with pulse := false }.toWord),
     if 0 < l then { i with pulse := false } else if 0 < h then { i with pulse := true } else i)) ∧
  (∀ (p q : List Stmt) (i : In), expandAll (p ++ q) i =
    ((expandAll p i).1 ++ (expandAll q (expandAll p i).2).1, (expandAll q (expandAll p i).2).2)) ∧
  (∀ (s : Stmt) (i : In), expandAll [] i = ([], i) ∧ expandAll [s] i = s.expand i) ∧
  (∀ p : List Stmt, expandProgram p = (expandAll p In.zero).1)
end

