-- ==== Sys2Proof/Laws/Word.lean ====
section
/-! SUPPORT. Reads after writes, of a channel's value and of a bit. -/

namespace Sys2Proof

@[simp] theorem PerCh.get_set_self {α : Type} (v : PerCh α) (ch : Ch) (x : α) :
    (v.set ch x).get ch = x := by
  cases ch <;> rfl

theorem PerCh.get_set {α : Type} (v : PerCh α) (ch ch' : Ch) (x : α) :
    (v.set ch x).get ch' = if ch' = ch then x else v.get ch' := by
  cases ch <;> cases ch' <;> rfl

@[simp] theorem PerCh.get_set_ne {α : Type} (v : PerCh α) {ch ch' : Ch} (x : α) (h : ch' ≠ ch) :
    (v.set ch x).get ch' = v.get ch' := by
  simp [PerCh.get_set, h]

@[simp] theorem PerCh.get_const {α : Type} (x : α) (ch : Ch) : (PerCh.const x).get ch = x := by
  cases ch <;> rfl

theorem PerCh.ext_get {α : Type} {v w : PerCh α} (h : ∀ ch, v.get ch = w.get ch) : v = w := by
  cases v; cases w
  have h0 := h .c0; have h1 := h .c1; have h2 := h .c2; have h3 := h .c3
  simp only [PerCh.get] at h0 h1 h2 h3
  subst h0; subst h1; subst h2; subst h3
  rfl

end Sys2Proof

namespace Sys2Proof.Machine

/-- A written bit reads back, and every other bit is unchanged. -/
theorem getLsbD_writeBit {n : Nat} (v : BitVec n) (i j : Nat) (b : Bool) :
    (writeBit v i b).getLsbD j = if j = i ∧ i < n then b else v.getLsbD j := by
  by_cases hj : j < n
  · unfold writeBit
    cases b
    · by_cases hi : i = j
      · subst hi; simp [hj]
      · simp [hj, Ne.symm hi]
    · by_cases hi : i = j
      · subst hi; simp [hj]
      · simp [BitVec.getLsbD_twoPow, hi, Ne.symm hi]
  · have hv := BitVec.getLsbD_of_ge v j (by omega)
    have hw := BitVec.getLsbD_of_ge (writeBit v i b) j (by omega)
    rw [hv, hw, if_neg (by omega)]

/-- 20_memory.md R41, R42: a cell reads what was written to it, every other cell what it held. -/
theorem memRead_memWrite (s : State) (ch ch' : Ch) (i i' : BitVec 5) (v : Bool) :
    (s.memWrite ch i v).memRead ch' i' = if ch' = ch ∧ i' = i then v else s.memRead ch' i' := by
  have hi := i.isLt
  unfold State.memRead State.memWrite
  simp only [PerCh.get_set]
  by_cases hc : ch' = ch
  · subst hc
    by_cases he : i' = i
    · subst he; simp [getLsbD_writeBit]; omega
    · have : i'.toNat ≠ i.toNat := fun h => he (BitVec.eq_of_toNat_eq h)
      simp [getLsbD_writeBit, he, this]
  · simp [hc]

@[simp] theorem memRead_memWrite_self (s : State) (ch : Ch) (i : BitVec 5) (v : Bool) :
    (s.memWrite ch i v).memRead ch i = v := by
  simp [memRead_memWrite]

/-- Two stores that read alike at every address are the same store. -/
theorem seq_ext_memRead {s t : State} (h : ∀ ch i, s.memRead ch i = t.memRead ch i) : s.seq = t.seq := by
  apply PerCh.ext_get
  intro ch
  apply BitVec.eq_of_getLsbD_eq
  intro i hi
  have := h ch (BitVec.ofNat 5 i)
  simpa [State.memRead, Nat.mod_eq_of_lt (show i < 32 from hi)] using this

end Sys2Proof.Machine
end

