-- ==== Sys2Proof/Laws/Decode.lean ====
section
/-! SUPPORT. The fields of an input word and the word of its fields, bit by bit. -/

namespace Sys2Proof

theorem getLsbD_fieldAt {n m : Nat} (v : BitVec n) (lo j : Nat) :
    (fieldAt m v lo).getLsbD j = (decide (j < m) && !decide (j < lo) && v.getLsbD (j - lo)) := by
  simp only [fieldAt, BitVec.getLsbD_shiftLeft, BitVec.getLsbD_setWidth]
  grind

theorem In.getLsbD_ctl7 (i : In) (j : Nat) : i.ctl7.getLsbD j =
    (decide (j = 0) && i.extSel || decide (j = 1) && i.pulse || decide (j = 2) && i.clear ||
      decide (j = 3) && i.btn.ch0 || decide (j = 4) && i.btn.ch1 || decide (j = 5) && i.btn.ch2 ||
      decide (j = 6) && i.btn.ch3) := by
  simp only [In.ctl7, BitVec.getLsbD_or, getLsbD_fieldAt, BitVec.getLsbD_ofBool]
  grind

theorem In.ofWord_toWord (i : In) : In.ofWord i.toWord = i := by
  obtain ⟨e, p, k, ⟨b0, b1, b2, b3⟩, tempo, steps, ⟨d0, d1, d2, d3⟩⟩ := i
  simp only [In.ofWord, In.toWord, In.mk.injEq, PerCh.mk.injEq, BitVec.getLsbD_or, getLsbD_fieldAt, In.getLsbD_ctl7]
  refine ⟨by simp, by simp, by simp, ⟨by simp, by simp, by simp, by simp⟩, ?_, ?_, ?_, ?_, ?_, ?_⟩
  all_goals
    apply BitVec.eq_of_getLsbD_eq
    intro j hj
    simp only [BitVec.getLsbD_extractLsb', BitVec.getLsbD_or, getLsbD_fieldAt, In.getLsbD_ctl7]
    grind

theorem getLsbD_fieldAt_extract {n k m : Nat} (w : BitVec n) (lo j : Nat) :
    (fieldAt m (w.extractLsb' lo k) lo).getLsbD j =
      (decide (j < m) && decide (lo ≤ j) && decide (j < lo + k) && w.getLsbD j) := by
  rw [getLsbD_fieldAt, BitVec.getLsbD_extractLsb']
  by_cases h : lo ≤ j
  · rw [show lo + (j - lo) = j by omega, show (decide (j - lo < k)) = decide (j < lo + k) by
      rw [decide_eq_decide]; omega]
    simp [h, show ¬ j < lo by omega, Bool.and_assoc]
  · simp [h, show j < lo by omega]

theorem decide_eq_and_getLsbD {n : Nat} (w : BitVec n) (j k : Nat) :
    (decide (j = k) && w.getLsbD k) = (decide (j = k) && w.getLsbD j) := by
  by_cases h : j = k <;> simp [h]

theorem In.toWord_ofWord (w : InWord) : (In.ofWord w).toWord = w := by
  apply BitVec.eq_of_getLsbD_eq
  intro j hj
  simp only [In.ofWord, In.toWord, BitVec.getLsbD_or, getLsbD_fieldAt_extract]
  simp only [getLsbD_fieldAt, In.getLsbD_ctl7, Nat.sub_zero, decide_eq_and_getLsbD w]
  cases w.getLsbD j
  · simp
  · simp [hj]
    omega

theorem getLsbD_fieldAt_byte (v lo j : Nat) :
    (fieldAt 80 (BitVec.ofNat 8 (v / 2 ^ lo)) lo).getLsbD j =
      (decide (j < 80) && decide (lo ≤ j) && decide (j < lo + 8) && v.testBit j) := by
  rw [getLsbD_fieldAt, BitVec.getLsbD_ofNat, Nat.testBit_div_two_pow]
  by_cases h : lo ≤ j
  · rw [show j - lo + lo = j by omega, show (decide (j - lo < 8)) = decide (j < lo + 8) by
      rw [decide_eq_decide]; omega]
    simp [h, show ¬ j < lo by omega, Bool.and_assoc]
  · simp [h, show j < lo by omega]

/-- The bytes of a container decode to its input word, and the bytes after it are left. -/
theorem decodeBytes_bytesOf (v : Nat) (rest : List Byte) :
    decodeBytes (bytesOf 10 v ++ rest) = .ok (decode (BitVec.ofNat 79 v), rest) := by
  simp only [bytesOf, List.cons_append, List.nil_append, decodeBytes]
  congr 3
  apply BitVec.eq_of_getLsbD_eq
  intro j hj
  have h0 := getLsbD_fieldAt_byte v 0 j
  rw [Nat.pow_zero, Nat.div_one] at h0
  simp only [Nat.div_div_eq_div_mul, show (256 : Nat) = 2 ^ 8 from rfl, ← Nat.pow_add]
  simp only [BitVec.getLsbD_setWidth, BitVec.getLsbD_or, getLsbD_fieldAt_byte, BitVec.getLsbD_ofNat, h0]
  cases v.testBit j
  · simp
  · simp [hj]
    omega

end Sys2Proof
end

