-- ==== Sys2Proof/Laws/State.lean ====
section
/-! SUPPORT. What each register update leaves in each field of the state, so that no proof unfolds a
record update. -/

namespace Sys2Proof.Machine

variable (s : State)

@[simp] theorem setMode_modeExt (e d : Bool) : (s.setMode e d).modeExt = e := rfl
@[simp] theorem setMode_clkDir (e d : Bool) : (s.setMode e d).clkDir = d := rfl
@[simp] theorem setMode_pulsePrev (e d : Bool) : (s.setMode e d).pulsePrev = s.pulsePrev := rfl
@[simp] theorem setMode_delay (e d : Bool) : (s.setMode e d).delay = s.delay := rfl
@[simp] theorem setMode_cyc (e d : Bool) : (s.setMode e d).cyc = s.cyc := rfl
@[simp] theorem setMode_thrCtr (e d : Bool) : (s.setMode e d).thrCtr = s.thrCtr := rfl
@[simp] theorem setMode_count (e d : Bool) : (s.setMode e d).count = s.count := rfl
@[simp] theorem setMode_numStepsPrev (e d : Bool) : (s.setMode e d).numStepsPrev = s.numStepsPrev := rfl
@[simp] theorem setMode_dispCd (e d : Bool) : (s.setMode e d).dispCd = s.dispCd := rfl
@[simp] theorem setMode_pressedPrev (e d : Bool) : (s.setMode e d).pressedPrev = s.pressedPrev := rfl
@[simp] theorem setMode_seq (e d : Bool) : (s.setMode e d).seq = s.seq := rfl
@[simp] theorem setMode_gate (e d : Bool) : (s.setMode e d).gate = s.gate := rfl
@[simp] theorem setMode_clkOut (e d : Bool) : (s.setMode e d).clkOut = s.clkOut := rfl
@[simp] theorem setMode_led (e d : Bool) : (s.setMode e d).led = s.led := rfl
@[simp] theorem setMode_out (e d : Bool) : (s.setMode e d).out = s.out := rfl
@[simp] theorem setMode_cfg (e d : Bool) : (s.setMode e d).cfg = s.cfg := rfl
@[simp] theorem setMode_wires (e d : Bool) : (s.setMode e d).wires = s.wires := rfl
@[simp] theorem setMode_pending (e d : Bool) : (s.setMode e d).pending = s.pending := rfl
@[simp] theorem setMode_drawn (e d : Bool) : (s.setMode e d).drawn = s.drawn := rfl

@[simp] theorem setPulsePrev_modeExt (v : Bool) : (s.setPulsePrev v).modeExt = s.modeExt := rfl
@[simp] theorem setPulsePrev_clkDir (v : Bool) : (s.setPulsePrev v).clkDir = s.clkDir := rfl
@[simp] theorem setPulsePrev_pulsePrev (v : Bool) : (s.setPulsePrev v).pulsePrev = v := rfl
@[simp] theorem setPulsePrev_delay (v : Bool) : (s.setPulsePrev v).delay = s.delay := rfl
@[simp] theorem setPulsePrev_cyc (v : Bool) : (s.setPulsePrev v).cyc = s.cyc := rfl
@[simp] theorem setPulsePrev_thrCtr (v : Bool) : (s.setPulsePrev v).thrCtr = s.thrCtr := rfl
@[simp] theorem setPulsePrev_count (v : Bool) : (s.setPulsePrev v).count = s.count := rfl
@[simp] theorem setPulsePrev_numStepsPrev (v : Bool) : (s.setPulsePrev v).numStepsPrev = s.numStepsPrev := rfl
@[simp] theorem setPulsePrev_dispCd (v : Bool) : (s.setPulsePrev v).dispCd = s.dispCd := rfl
@[simp] theorem setPulsePrev_pressedPrev (v : Bool) : (s.setPulsePrev v).pressedPrev = s.pressedPrev := rfl
@[simp] theorem setPulsePrev_seq (v : Bool) : (s.setPulsePrev v).seq = s.seq := rfl
@[simp] theorem setPulsePrev_gate (v : Bool) : (s.setPulsePrev v).gate = s.gate := rfl
@[simp] theorem setPulsePrev_clkOut (v : Bool) : (s.setPulsePrev v).clkOut = s.clkOut := rfl
@[simp] theorem setPulsePrev_led (v : Bool) : (s.setPulsePrev v).led = s.led := rfl
@[simp] theorem setPulsePrev_out (v : Bool) : (s.setPulsePrev v).out = s.out := rfl
@[simp] theorem setPulsePrev_cfg (v : Bool) : (s.setPulsePrev v).cfg = s.cfg := rfl
@[simp] theorem setPulsePrev_wires (v : Bool) : (s.setPulsePrev v).wires = s.wires := rfl
@[simp] theorem setPulsePrev_pending (v : Bool) : (s.setPulsePrev v).pending = s.pending := rfl
@[simp] theorem setPulsePrev_drawn (v : Bool) : (s.setPulsePrev v).drawn = s.drawn := rfl

@[simp] theorem setDelay_modeExt (v : BitVec 13) : (s.setDelay v).modeExt = s.modeExt := rfl
@[simp] theorem setDelay_clkDir (v : BitVec 13) : (s.setDelay v).clkDir = s.clkDir := rfl
@[simp] theorem setDelay_pulsePrev (v : BitVec 13) : (s.setDelay v).pulsePrev = s.pulsePrev := rfl
@[simp] theorem setDelay_delay (v : BitVec 13) : (s.setDelay v).delay = v := rfl
@[simp] theorem setDelay_cyc (v : BitVec 13) : (s.setDelay v).cyc = s.cyc := rfl
@[simp] theorem setDelay_thrCtr (v : BitVec 13) : (s.setDelay v).thrCtr = s.thrCtr := rfl
@[simp] theorem setDelay_count (v : BitVec 13) : (s.setDelay v).count = s.count := rfl
@[simp] theorem setDelay_numStepsPrev (v : BitVec 13) : (s.setDelay v).numStepsPrev = s.numStepsPrev := rfl
@[simp] theorem setDelay_dispCd (v : BitVec 13) : (s.setDelay v).dispCd = s.dispCd := rfl
@[simp] theorem setDelay_pressedPrev (v : BitVec 13) : (s.setDelay v).pressedPrev = s.pressedPrev := rfl
@[simp] theorem setDelay_seq (v : BitVec 13) : (s.setDelay v).seq = s.seq := rfl
@[simp] theorem setDelay_gate (v : BitVec 13) : (s.setDelay v).gate = s.gate := rfl
@[simp] theorem setDelay_clkOut (v : BitVec 13) : (s.setDelay v).clkOut = s.clkOut := rfl
@[simp] theorem setDelay_led (v : BitVec 13) : (s.setDelay v).led = s.led := rfl
@[simp] theorem setDelay_out (v : BitVec 13) : (s.setDelay v).out = s.out := rfl
@[simp] theorem setDelay_cfg (v : BitVec 13) : (s.setDelay v).cfg = s.cfg := rfl
@[simp] theorem setDelay_wires (v : BitVec 13) : (s.setDelay v).wires = s.wires := rfl
@[simp] theorem setDelay_pending (v : BitVec 13) : (s.setDelay v).pending = s.pending := rfl
@[simp] theorem setDelay_drawn (v : BitVec 13) : (s.setDelay v).drawn = s.drawn := rfl

@[simp] theorem setCyc_modeExt (v : BitVec 13) : (s.setCyc v).modeExt = s.modeExt := rfl
@[simp] theorem setCyc_clkDir (v : BitVec 13) : (s.setCyc v).clkDir = s.clkDir := rfl
@[simp] theorem setCyc_pulsePrev (v : BitVec 13) : (s.setCyc v).pulsePrev = s.pulsePrev := rfl
@[simp] theorem setCyc_delay (v : BitVec 13) : (s.setCyc v).delay = s.delay := rfl
@[simp] theorem setCyc_cyc (v : BitVec 13) : (s.setCyc v).cyc = v := rfl
@[simp] theorem setCyc_thrCtr (v : BitVec 13) : (s.setCyc v).thrCtr = s.thrCtr := rfl
@[simp] theorem setCyc_count (v : BitVec 13) : (s.setCyc v).count = s.count := rfl
@[simp] theorem setCyc_numStepsPrev (v : BitVec 13) : (s.setCyc v).numStepsPrev = s.numStepsPrev := rfl
@[simp] theorem setCyc_dispCd (v : BitVec 13) : (s.setCyc v).dispCd = s.dispCd := rfl
@[simp] theorem setCyc_pressedPrev (v : BitVec 13) : (s.setCyc v).pressedPrev = s.pressedPrev := rfl
@[simp] theorem setCyc_seq (v : BitVec 13) : (s.setCyc v).seq = s.seq := rfl
@[simp] theorem setCyc_gate (v : BitVec 13) : (s.setCyc v).gate = s.gate := rfl
@[simp] theorem setCyc_clkOut (v : BitVec 13) : (s.setCyc v).clkOut = s.clkOut := rfl
@[simp] theorem setCyc_led (v : BitVec 13) : (s.setCyc v).led = s.led := rfl
@[simp] theorem setCyc_out (v : BitVec 13) : (s.setCyc v).out = s.out := rfl
@[simp] theorem setCyc_cfg (v : BitVec 13) : (s.setCyc v).cfg = s.cfg := rfl
@[simp] theorem setCyc_wires (v : BitVec 13) : (s.setCyc v).wires = s.wires := rfl
@[simp] theorem setCyc_pending (v : BitVec 13) : (s.setCyc v).pending = s.pending := rfl
@[simp] theorem setCyc_drawn (v : BitVec 13) : (s.setCyc v).drawn = s.drawn := rfl

@[simp] theorem setThrCtr_modeExt (v : BitVec 9) : (s.setThrCtr v).modeExt = s.modeExt := rfl
@[simp] theorem setThrCtr_clkDir (v : BitVec 9) : (s.setThrCtr v).clkDir = s.clkDir := rfl
@[simp] theorem setThrCtr_pulsePrev (v : BitVec 9) : (s.setThrCtr v).pulsePrev = s.pulsePrev := rfl
@[simp] theorem setThrCtr_delay (v : BitVec 9) : (s.setThrCtr v).delay = s.delay := rfl
@[simp] theorem setThrCtr_cyc (v : BitVec 9) : (s.setThrCtr v).cyc = s.cyc := rfl
@[simp] theorem setThrCtr_thrCtr (v : BitVec 9) : (s.setThrCtr v).thrCtr = v := rfl
@[simp] theorem setThrCtr_count (v : BitVec 9) : (s.setThrCtr v).count = s.count := rfl
@[simp] theorem setThrCtr_numStepsPrev (v : BitVec 9) : (s.setThrCtr v).numStepsPrev = s.numStepsPrev := rfl
@[simp] theorem setThrCtr_dispCd (v : BitVec 9) : (s.setThrCtr v).dispCd = s.dispCd := rfl
@[simp] theorem setThrCtr_pressedPrev (v : BitVec 9) : (s.setThrCtr v).pressedPrev = s.pressedPrev := rfl
@[simp] theorem setThrCtr_seq (v : BitVec 9) : (s.setThrCtr v).seq = s.seq := rfl
@[simp] theorem setThrCtr_gate (v : BitVec 9) : (s.setThrCtr v).gate = s.gate := rfl
@[simp] theorem setThrCtr_clkOut (v : BitVec 9) : (s.setThrCtr v).clkOut = s.clkOut := rfl
@[simp] theorem setThrCtr_led (v : BitVec 9) : (s.setThrCtr v).led = s.led := rfl
@[simp] theorem setThrCtr_out (v : BitVec 9) : (s.setThrCtr v).out = s.out := rfl
@[simp] theorem setThrCtr_cfg (v : BitVec 9) : (s.setThrCtr v).cfg = s.cfg := rfl
@[simp] theorem setThrCtr_wires (v : BitVec 9) : (s.setThrCtr v).wires = s.wires := rfl
@[simp] theorem setThrCtr_pending (v : BitVec 9) : (s.setThrCtr v).pending = s.pending := rfl
@[simp] theorem setThrCtr_drawn (v : BitVec 9) : (s.setThrCtr v).drawn = s.drawn := rfl

@[simp] theorem setCount_modeExt (v : BitVec 5) : (s.setCount v).modeExt = s.modeExt := rfl
@[simp] theorem setCount_clkDir (v : BitVec 5) : (s.setCount v).clkDir = s.clkDir := rfl
@[simp] theorem setCount_pulsePrev (v : BitVec 5) : (s.setCount v).pulsePrev = s.pulsePrev := rfl
@[simp] theorem setCount_delay (v : BitVec 5) : (s.setCount v).delay = s.delay := rfl
@[simp] theorem setCount_cyc (v : BitVec 5) : (s.setCount v).cyc = s.cyc := rfl
@[simp] theorem setCount_thrCtr (v : BitVec 5) : (s.setCount v).thrCtr = s.thrCtr := rfl
@[simp] theorem setCount_count (v : BitVec 5) : (s.setCount v).count = v := rfl
@[simp] theorem setCount_numStepsPrev (v : BitVec 5) : (s.setCount v).numStepsPrev = s.numStepsPrev := rfl
@[simp] theorem setCount_dispCd (v : BitVec 5) : (s.setCount v).dispCd = s.dispCd := rfl
@[simp] theorem setCount_pressedPrev (v : BitVec 5) : (s.setCount v).pressedPrev = s.pressedPrev := rfl
@[simp] theorem setCount_seq (v : BitVec 5) : (s.setCount v).seq = s.seq := rfl
@[simp] theorem setCount_gate (v : BitVec 5) : (s.setCount v).gate = s.gate := rfl
@[simp] theorem setCount_clkOut (v : BitVec 5) : (s.setCount v).clkOut = s.clkOut := rfl
@[simp] theorem setCount_led (v : BitVec 5) : (s.setCount v).led = s.led := rfl
@[simp] theorem setCount_out (v : BitVec 5) : (s.setCount v).out = s.out := rfl
@[simp] theorem setCount_cfg (v : BitVec 5) : (s.setCount v).cfg = s.cfg := rfl
@[simp] theorem setCount_wires (v : BitVec 5) : (s.setCount v).wires = s.wires := rfl
@[simp] theorem setCount_pending (v : BitVec 5) : (s.setCount v).pending = s.pending := rfl
@[simp] theorem setCount_drawn (v : BitVec 5) : (s.setCount v).drawn = s.drawn := rfl

@[simp] theorem setNumStepsPrev_modeExt (v : BitVec 6) : (s.setNumStepsPrev v).modeExt = s.modeExt := rfl
@[simp] theorem setNumStepsPrev_clkDir (v : BitVec 6) : (s.setNumStepsPrev v).clkDir = s.clkDir := rfl
@[simp] theorem setNumStepsPrev_pulsePrev (v : BitVec 6) : (s.setNumStepsPrev v).pulsePrev = s.pulsePrev := rfl
@[simp] theorem setNumStepsPrev_delay (v : BitVec 6) : (s.setNumStepsPrev v).delay = s.delay := rfl
@[simp] theorem setNumStepsPrev_cyc (v : BitVec 6) : (s.setNumStepsPrev v).cyc = s.cyc := rfl
@[simp] theorem setNumStepsPrev_thrCtr (v : BitVec 6) : (s.setNumStepsPrev v).thrCtr = s.thrCtr := rfl
@[simp] theorem setNumStepsPrev_count (v : BitVec 6) : (s.setNumStepsPrev v).count = s.count := rfl
@[simp] theorem setNumStepsPrev_numStepsPrev (v : BitVec 6) : (s.setNumStepsPrev v).numStepsPrev = v := rfl
@[simp] theorem setNumStepsPrev_dispCd (v : BitVec 6) : (s.setNumStepsPrev v).dispCd = s.dispCd := rfl
@[simp] theorem setNumStepsPrev_pressedPrev (v : BitVec 6) : (s.setNumStepsPrev v).pressedPrev = s.pressedPrev := rfl
@[simp] theorem setNumStepsPrev_seq (v : BitVec 6) : (s.setNumStepsPrev v).seq = s.seq := rfl
@[simp] theorem setNumStepsPrev_gate (v : BitVec 6) : (s.setNumStepsPrev v).gate = s.gate := rfl
@[simp] theorem setNumStepsPrev_clkOut (v : BitVec 6) : (s.setNumStepsPrev v).clkOut = s.clkOut := rfl
@[simp] theorem setNumStepsPrev_led (v : BitVec 6) : (s.setNumStepsPrev v).led = s.led := rfl
@[simp] theorem setNumStepsPrev_out (v : BitVec 6) : (s.setNumStepsPrev v).out = s.out := rfl
@[simp] theorem setNumStepsPrev_cfg (v : BitVec 6) : (s.setNumStepsPrev v).cfg = s.cfg := rfl
@[simp] theorem setNumStepsPrev_wires (v : BitVec 6) : (s.setNumStepsPrev v).wires = s.wires := rfl
@[simp] theorem setNumStepsPrev_pending (v : BitVec 6) : (s.setNumStepsPrev v).pending = s.pending := rfl
@[simp] theorem setNumStepsPrev_drawn (v : BitVec 6) : (s.setNumStepsPrev v).drawn = s.drawn := rfl

@[simp] theorem setDispCd_modeExt (v : BitVec 11) : (s.setDispCd v).modeExt = s.modeExt := rfl
@[simp] theorem setDispCd_clkDir (v : BitVec 11) : (s.setDispCd v).clkDir = s.clkDir := rfl
@[simp] theorem setDispCd_pulsePrev (v : BitVec 11) : (s.setDispCd v).pulsePrev = s.pulsePrev := rfl
@[simp] theorem setDispCd_delay (v : BitVec 11) : (s.setDispCd v).delay = s.delay := rfl
@[simp] theorem setDispCd_cyc (v : BitVec 11) : (s.setDispCd v).cyc = s.cyc := rfl
@[simp] theorem setDispCd_thrCtr (v : BitVec 11) : (s.setDispCd v).thrCtr = s.thrCtr := rfl
@[simp] theorem setDispCd_count (v : BitVec 11) : (s.setDispCd v).count = s.count := rfl
@[simp] theorem setDispCd_numStepsPrev (v : BitVec 11) : (s.setDispCd v).numStepsPrev = s.numStepsPrev := rfl
@[simp] theorem setDispCd_dispCd (v : BitVec 11) : (s.setDispCd v).dispCd = v := rfl
@[simp] theorem setDispCd_pressedPrev (v : BitVec 11) : (s.setDispCd v).pressedPrev = s.pressedPrev := rfl
@[simp] theorem setDispCd_seq (v : BitVec 11) : (s.setDispCd v).seq = s.seq := rfl
@[simp] theorem setDispCd_gate (v : BitVec 11) : (s.setDispCd v).gate = s.gate := rfl
@[simp] theorem setDispCd_clkOut (v : BitVec 11) : (s.setDispCd v).clkOut = s.clkOut := rfl
@[simp] theorem setDispCd_led (v : BitVec 11) : (s.setDispCd v).led = s.led := rfl
@[simp] theorem setDispCd_out (v : BitVec 11) : (s.setDispCd v).out = s.out := rfl
@[simp] theorem setDispCd_cfg (v : BitVec 11) : (s.setDispCd v).cfg = s.cfg := rfl
@[simp] theorem setDispCd_wires (v : BitVec 11) : (s.setDispCd v).wires = s.wires := rfl
@[simp] theorem setDispCd_pending (v : BitVec 11) : (s.setDispCd v).pending = s.pending := rfl
@[simp] theorem setDispCd_drawn (v : BitVec 11) : (s.setDispCd v).drawn = s.drawn := rfl

@[simp] theorem setPressedPrev_modeExt (ch : Ch) (v : Bool) : (s.setPressedPrev ch v).modeExt = s.modeExt := rfl
@[simp] theorem setPressedPrev_clkDir (ch : Ch) (v : Bool) : (s.setPressedPrev ch v).clkDir = s.clkDir := rfl
@[simp] theorem setPressedPrev_pulsePrev (ch : Ch) (v : Bool) : (s.setPressedPrev ch v).pulsePrev = s.pulsePrev := rfl
@[simp] theorem setPressedPrev_delay (ch : Ch) (v : Bool) : (s.setPressedPrev ch v).delay = s.delay := rfl
@[simp] theorem setPressedPrev_cyc (ch : Ch) (v : Bool) : (s.setPressedPrev ch v).cyc = s.cyc := rfl
@[simp] theorem setPressedPrev_thrCtr (ch : Ch) (v : Bool) : (s.setPressedPrev ch v).thrCtr = s.thrCtr := rfl
@[simp] theorem setPressedPrev_count (ch : Ch) (v : Bool) : (s.setPressedPrev ch v).count = s.count := rfl
@[simp] theorem setPressedPrev_numStepsPrev (ch : Ch) (v : Bool) : (s.setPressedPrev ch v).numStepsPrev = s.numStepsPrev := rfl
@[simp] theorem setPressedPrev_dispCd (ch : Ch) (v : Bool) : (s.setPressedPrev ch v).dispCd = s.dispCd := rfl
@[simp] theorem setPressedPrev_pressedPrev (ch : Ch) (v : Bool) : (s.setPressedPrev ch v).pressedPrev = s.pressedPrev.set ch v := rfl
@[simp] theorem setPressedPrev_seq (ch : Ch) (v : Bool) : (s.setPressedPrev ch v).seq = s.seq := rfl
@[simp] theorem setPressedPrev_gate (ch : Ch) (v : Bool) : (s.setPressedPrev ch v).gate = s.gate := rfl
@[simp] theorem setPressedPrev_clkOut (ch : Ch) (v : Bool) : (s.setPressedPrev ch v).clkOut = s.clkOut := rfl
@[simp] theorem setPressedPrev_led (ch : Ch) (v : Bool) : (s.setPressedPrev ch v).led = s.led := rfl
@[simp] theorem setPressedPrev_out (ch : Ch) (v : Bool) : (s.setPressedPrev ch v).out = s.out := rfl
@[simp] theorem setPressedPrev_cfg (ch : Ch) (v : Bool) : (s.setPressedPrev ch v).cfg = s.cfg := rfl
@[simp] theorem setPressedPrev_wires (ch : Ch) (v : Bool) : (s.setPressedPrev ch v).wires = s.wires := rfl
@[simp] theorem setPressedPrev_pending (ch : Ch) (v : Bool) : (s.setPressedPrev ch v).pending = s.pending := rfl
@[simp] theorem setPressedPrev_drawn (ch : Ch) (v : Bool) : (s.setPressedPrev ch v).drawn = s.drawn := rfl

@[simp] theorem setGate_modeExt (ch : Ch) (v : Bool) : (s.setGate ch v).modeExt = s.modeExt := rfl
@[simp] theorem setGate_clkDir (ch : Ch) (v : Bool) : (s.setGate ch v).clkDir = s.clkDir := rfl
@[simp] theorem setGate_pulsePrev (ch : Ch) (v : Bool) : (s.setGate ch v).pulsePrev = s.pulsePrev := rfl
@[simp] theorem setGate_delay (ch : Ch) (v : Bool) : (s.setGate ch v).delay = s.delay := rfl
@[simp] theorem setGate_cyc (ch : Ch) (v : Bool) : (s.setGate ch v).cyc = s.cyc := rfl
@[simp] theorem setGate_thrCtr (ch : Ch) (v : Bool) : (s.setGate ch v).thrCtr = s.thrCtr := rfl
@[simp] theorem setGate_count (ch : Ch) (v : Bool) : (s.setGate ch v).count = s.count := rfl
@[simp] theorem setGate_numStepsPrev (ch : Ch) (v : Bool) : (s.setGate ch v).numStepsPrev = s.numStepsPrev := rfl
@[simp] theorem setGate_dispCd (ch : Ch) (v : Bool) : (s.setGate ch v).dispCd = s.dispCd := rfl
@[simp] theorem setGate_pressedPrev (ch : Ch) (v : Bool) : (s.setGate ch v).pressedPrev = s.pressedPrev := rfl
@[simp] theorem setGate_seq (ch : Ch) (v : Bool) : (s.setGate ch v).seq = s.seq := rfl
@[simp] theorem setGate_gate (ch : Ch) (v : Bool) : (s.setGate ch v).gate = s.gate.set ch v := rfl
@[simp] theorem setGate_clkOut (ch : Ch) (v : Bool) : (s.setGate ch v).clkOut = s.clkOut := rfl
@[simp] theorem setGate_led (ch : Ch) (v : Bool) : (s.setGate ch v).led = s.led := rfl
@[simp] theorem setGate_out (ch : Ch) (v : Bool) : (s.setGate ch v).out = s.out := rfl
@[simp] theorem setGate_cfg (ch : Ch) (v : Bool) : (s.setGate ch v).cfg = s.cfg := rfl
@[simp] theorem setGate_wires (ch : Ch) (v : Bool) : (s.setGate ch v).wires = s.wires := rfl
@[simp] theorem setGate_pending (ch : Ch) (v : Bool) : (s.setGate ch v).pending = s.pending := rfl
@[simp] theorem setGate_drawn (ch : Ch) (v : Bool) : (s.setGate ch v).drawn = s.drawn := rfl

@[simp] theorem setClkOut_modeExt (v : Bool) : (s.setClkOut v).modeExt = s.modeExt := rfl
@[simp] theorem setClkOut_clkDir (v : Bool) : (s.setClkOut v).clkDir = s.clkDir := rfl
@[simp] theorem setClkOut_pulsePrev (v : Bool) : (s.setClkOut v).pulsePrev = s.pulsePrev := rfl
@[simp] theorem setClkOut_delay (v : Bool) : (s.setClkOut v).delay = s.delay := rfl
@[simp] theorem setClkOut_cyc (v : Bool) : (s.setClkOut v).cyc = s.cyc := rfl
@[simp] theorem setClkOut_thrCtr (v : Bool) : (s.setClkOut v).thrCtr = s.thrCtr := rfl
@[simp] theorem setClkOut_count (v : Bool) : (s.setClkOut v).count = s.count := rfl
@[simp] theorem setClkOut_numStepsPrev (v : Bool) : (s.setClkOut v).numStepsPrev = s.numStepsPrev := rfl
@[simp] theorem setClkOut_dispCd (v : Bool) : (s.setClkOut v).dispCd = s.dispCd := rfl
@[simp] theorem setClkOut_pressedPrev (v : Bool) : (s.setClkOut v).pressedPrev = s.pressedPrev := rfl
@[simp] theorem setClkOut_seq (v : Bool) : (s.setClkOut v).seq = s.seq := rfl
@[simp] theorem setClkOut_gate (v : Bool) : (s.setClkOut v).gate = s.gate := rfl
@[simp] theorem setClkOut_clkOut (v : Bool) : (s.setClkOut v).clkOut = v := rfl
@[simp] theorem setClkOut_led (v : Bool) : (s.setClkOut v).led = s.led := rfl
@[simp] theorem setClkOut_out (v : Bool) : (s.setClkOut v).out = s.out := rfl
@[simp] theorem setClkOut_cfg (v : Bool) : (s.setClkOut v).cfg = s.cfg := rfl
@[simp] theorem setClkOut_wires (v : Bool) : (s.setClkOut v).wires = s.wires := rfl
@[simp] theorem setClkOut_pending (v : Bool) : (s.setClkOut v).pending = s.pending := rfl
@[simp] theorem setClkOut_drawn (v : Bool) : (s.setClkOut v).drawn = s.drawn := rfl

@[simp] theorem setLed_modeExt (v : BitVec 5) : (s.setLed v).modeExt = s.modeExt := rfl
@[simp] theorem setLed_clkDir (v : BitVec 5) : (s.setLed v).clkDir = s.clkDir := rfl
@[simp] theorem setLed_pulsePrev (v : BitVec 5) : (s.setLed v).pulsePrev = s.pulsePrev := rfl
@[simp] theorem setLed_delay (v : BitVec 5) : (s.setLed v).delay = s.delay := rfl
@[simp] theorem setLed_cyc (v : BitVec 5) : (s.setLed v).cyc = s.cyc := rfl
@[simp] theorem setLed_thrCtr (v : BitVec 5) : (s.setLed v).thrCtr = s.thrCtr := rfl
@[simp] theorem setLed_count (v : BitVec 5) : (s.setLed v).count = s.count := rfl
@[simp] theorem setLed_numStepsPrev (v : BitVec 5) : (s.setLed v).numStepsPrev = s.numStepsPrev := rfl
@[simp] theorem setLed_dispCd (v : BitVec 5) : (s.setLed v).dispCd = s.dispCd := rfl
@[simp] theorem setLed_pressedPrev (v : BitVec 5) : (s.setLed v).pressedPrev = s.pressedPrev := rfl
@[simp] theorem setLed_seq (v : BitVec 5) : (s.setLed v).seq = s.seq := rfl
@[simp] theorem setLed_gate (v : BitVec 5) : (s.setLed v).gate = s.gate := rfl
@[simp] theorem setLed_clkOut (v : BitVec 5) : (s.setLed v).clkOut = s.clkOut := rfl
@[simp] theorem setLed_led (v : BitVec 5) : (s.setLed v).led = v := rfl
@[simp] theorem setLed_out (v : BitVec 5) : (s.setLed v).out = s.out := rfl
@[simp] theorem setLed_cfg (v : BitVec 5) : (s.setLed v).cfg = s.cfg := rfl
@[simp] theorem setLed_wires (v : BitVec 5) : (s.setLed v).wires = s.wires := rfl
@[simp] theorem setLed_pending (v : BitVec 5) : (s.setLed v).pending = s.pending := rfl
@[simp] theorem setLed_drawn (v : BitVec 5) : (s.setLed v).drawn = s.drawn := rfl

@[simp] theorem setOut_modeExt (v : OutWord) : (s.setOut v).modeExt = s.modeExt := rfl
@[simp] theorem setOut_clkDir (v : OutWord) : (s.setOut v).clkDir = s.clkDir := rfl
@[simp] theorem setOut_pulsePrev (v : OutWord) : (s.setOut v).pulsePrev = s.pulsePrev := rfl
@[simp] theorem setOut_delay (v : OutWord) : (s.setOut v).delay = s.delay := rfl
@[simp] theorem setOut_cyc (v : OutWord) : (s.setOut v).cyc = s.cyc := rfl
@[simp] theorem setOut_thrCtr (v : OutWord) : (s.setOut v).thrCtr = s.thrCtr := rfl
@[simp] theorem setOut_count (v : OutWord) : (s.setOut v).count = s.count := rfl
@[simp] theorem setOut_numStepsPrev (v : OutWord) : (s.setOut v).numStepsPrev = s.numStepsPrev := rfl
@[simp] theorem setOut_dispCd (v : OutWord) : (s.setOut v).dispCd = s.dispCd := rfl
@[simp] theorem setOut_pressedPrev (v : OutWord) : (s.setOut v).pressedPrev = s.pressedPrev := rfl
@[simp] theorem setOut_seq (v : OutWord) : (s.setOut v).seq = s.seq := rfl
@[simp] theorem setOut_gate (v : OutWord) : (s.setOut v).gate = s.gate := rfl
@[simp] theorem setOut_clkOut (v : OutWord) : (s.setOut v).clkOut = s.clkOut := rfl
@[simp] theorem setOut_led (v : OutWord) : (s.setOut v).led = s.led := rfl
@[simp] theorem setOut_out (v : OutWord) : (s.setOut v).out = v := rfl
@[simp] theorem setOut_cfg (v : OutWord) : (s.setOut v).cfg = s.cfg := rfl
@[simp] theorem setOut_wires (v : OutWord) : (s.setOut v).wires = s.wires := rfl
@[simp] theorem setOut_pending (v : OutWord) : (s.setOut v).pending = s.pending := rfl
@[simp] theorem setOut_drawn (v : OutWord) : (s.setOut v).drawn = s.drawn := rfl

@[simp] theorem setWires_modeExt (w : Wires) : (s.setWires w).modeExt = s.modeExt := rfl
@[simp] theorem setWires_clkDir (w : Wires) : (s.setWires w).clkDir = s.clkDir := rfl
@[simp] theorem setWires_pulsePrev (w : Wires) : (s.setWires w).pulsePrev = s.pulsePrev := rfl
@[simp] theorem setWires_delay (w : Wires) : (s.setWires w).delay = s.delay := rfl
@[simp] theorem setWires_cyc (w : Wires) : (s.setWires w).cyc = s.cyc := rfl
@[simp] theorem setWires_thrCtr (w : Wires) : (s.setWires w).thrCtr = s.thrCtr := rfl
@[simp] theorem setWires_count (w : Wires) : (s.setWires w).count = s.count := rfl
@[simp] theorem setWires_numStepsPrev (w : Wires) : (s.setWires w).numStepsPrev = s.numStepsPrev := rfl
@[simp] theorem setWires_dispCd (w : Wires) : (s.setWires w).dispCd = s.dispCd := rfl
@[simp] theorem setWires_pressedPrev (w : Wires) : (s.setWires w).pressedPrev = s.pressedPrev := rfl
@[simp] theorem setWires_seq (w : Wires) : (s.setWires w).seq = s.seq := rfl
@[simp] theorem setWires_gate (w : Wires) : (s.setWires w).gate = s.gate := rfl
@[simp] theorem setWires_clkOut (w : Wires) : (s.setWires w).clkOut = s.clkOut := rfl
@[simp] theorem setWires_led (w : Wires) : (s.setWires w).led = s.led := rfl
@[simp] theorem setWires_out (w : Wires) : (s.setWires w).out = s.out := rfl
@[simp] theorem setWires_cfg (w : Wires) : (s.setWires w).cfg = s.cfg := rfl
@[simp] theorem setWires_wires (w : Wires) : (s.setWires w).wires = w := rfl
@[simp] theorem setWires_pending (w : Wires) : (s.setWires w).pending = s.pending := rfl
@[simp] theorem setWires_drawn (w : Wires) : (s.setWires w).drawn = s.drawn := rfl

@[simp] theorem memWrite_modeExt (ch : Ch) (i : BitVec 5) (v : Bool) : (s.memWrite ch i v).modeExt = s.modeExt := rfl
@[simp] theorem memWrite_clkDir (ch : Ch) (i : BitVec 5) (v : Bool) : (s.memWrite ch i v).clkDir = s.clkDir := rfl
@[simp] theorem memWrite_pulsePrev (ch : Ch) (i : BitVec 5) (v : Bool) : (s.memWrite ch i v).pulsePrev = s.pulsePrev := rfl
@[simp] theorem memWrite_delay (ch : Ch) (i : BitVec 5) (v : Bool) : (s.memWrite ch i v).delay = s.delay := rfl
@[simp] theorem memWrite_cyc (ch : Ch) (i : BitVec 5) (v : Bool) : (s.memWrite ch i v).cyc = s.cyc := rfl
@[simp] theorem memWrite_thrCtr (ch : Ch) (i : BitVec 5) (v : Bool) : (s.memWrite ch i v).thrCtr = s.thrCtr := rfl
@[simp] theorem memWrite_count (ch : Ch) (i : BitVec 5) (v : Bool) : (s.memWrite ch i v).count = s.count := rfl
@[simp] theorem memWrite_numStepsPrev (ch : Ch) (i : BitVec 5) (v : Bool) : (s.memWrite ch i v).numStepsPrev = s.numStepsPrev := rfl
@[simp] theorem memWrite_dispCd (ch : Ch) (i : BitVec 5) (v : Bool) : (s.memWrite ch i v).dispCd = s.dispCd := rfl
@[simp] theorem memWrite_pressedPrev (ch : Ch) (i : BitVec 5) (v : Bool) : (s.memWrite ch i v).pressedPrev = s.pressedPrev := rfl
@[simp] theorem memWrite_seq (ch : Ch) (i : BitVec 5) (v : Bool) : (s.memWrite ch i v).seq = s.seq.set ch (writeBit (s.seq.get ch) i.toNat v) := rfl
@[simp] theorem memWrite_gate (ch : Ch) (i : BitVec 5) (v : Bool) : (s.memWrite ch i v).gate = s.gate := rfl
@[simp] theorem memWrite_clkOut (ch : Ch) (i : BitVec 5) (v : Bool) : (s.memWrite ch i v).clkOut = s.clkOut := rfl
@[simp] theorem memWrite_led (ch : Ch) (i : BitVec 5) (v : Bool) : (s.memWrite ch i v).led = s.led := rfl
@[simp] theorem memWrite_out (ch : Ch) (i : BitVec 5) (v : Bool) : (s.memWrite ch i v).out = s.out := rfl
@[simp] theorem memWrite_cfg (ch : Ch) (i : BitVec 5) (v : Bool) : (s.memWrite ch i v).cfg = s.cfg := rfl
@[simp] theorem memWrite_wires (ch : Ch) (i : BitVec 5) (v : Bool) : (s.memWrite ch i v).wires = s.wires := rfl
@[simp] theorem memWrite_pending (ch : Ch) (i : BitVec 5) (v : Bool) : (s.memWrite ch i v).pending = s.pending := rfl
@[simp] theorem memWrite_drawn (ch : Ch) (i : BitVec 5) (v : Bool) : (s.memWrite ch i v).drawn = s.drawn := rfl
/-! No register update touches the sequence store. -/

@[simp] theorem setMode_memRead (e d : Bool) : (s.setMode e d).memRead = s.memRead := rfl
@[simp] theorem setPulsePrev_memRead (v : Bool) : (s.setPulsePrev v).memRead = s.memRead := rfl
@[simp] theorem setDelay_memRead (v : BitVec 13) : (s.setDelay v).memRead = s.memRead := rfl
@[simp] theorem setCyc_memRead (v : BitVec 13) : (s.setCyc v).memRead = s.memRead := rfl
@[simp] theorem setThrCtr_memRead (v : BitVec 9) : (s.setThrCtr v).memRead = s.memRead := rfl
@[simp] theorem setCount_memRead (v : BitVec 5) : (s.setCount v).memRead = s.memRead := rfl
@[simp] theorem setNumStepsPrev_memRead (v : BitVec 6) : (s.setNumStepsPrev v).memRead = s.memRead := rfl
@[simp] theorem setDispCd_memRead (v : BitVec 11) : (s.setDispCd v).memRead = s.memRead := rfl
@[simp] theorem setPressedPrev_memRead (ch : Ch) (v : Bool) : (s.setPressedPrev ch v).memRead = s.memRead := rfl
@[simp] theorem setGate_memRead (ch : Ch) (v : Bool) : (s.setGate ch v).memRead = s.memRead := rfl
@[simp] theorem setClkOut_memRead (v : Bool) : (s.setClkOut v).memRead = s.memRead := rfl
@[simp] theorem setLed_memRead (v : BitVec 5) : (s.setLed v).memRead = s.memRead := rfl
@[simp] theorem setOut_memRead (v : OutWord) : (s.setOut v).memRead = s.memRead := rfl
@[simp] theorem setWires_memRead (w : Wires) : (s.setWires w).memRead = s.memRead := rfl

end Sys2Proof.Machine
end

