-- ==== Sys2Proof/Laws/Ops.lean ====
section
/-! SUPPORT. One equation per operation: which registers and wires it writes and with what, as updates
without a branch, so that the field lemmas of Laws/State.lean say the rest. -/

namespace Sys2Proof.Machine

variable (s : State)

theorem sample_eq (inp : In) : sample inp s = s.setWires { s.wires with inp := inp } := rfl

theorem nsteps_eq : nsteps s = s.setWires { s.wires with ns := nsOf s.wires.inp.steps } := rfl

theorem caMode_eq : caMode s =
    (s.setWires { s.wires with modeDiff := modeDiffOf s.wires.inp.extSel s.modeExt }).setMode
      s.wires.inp.extSel
      (if modeDiffOf s.wires.inp.extSel s.modeExt then !s.wires.inp.extSel else s.clkDir) := by
  unfold caMode
  by_cases h : modeDiffOf s.wires.inp.extSel s.modeExt = true
  · simp [h]
  · have : s.wires.inp.extSel = s.modeExt := by simpa [modeDiffOf] using h
    simp [modeDiffOf, this, State.setMode, State.setWires]

theorem caThr_eq : caThr s =
    (s.setWires { s.wires with recompute := recomputeOf s.cfg.pDelay s.thrCtr }).setThrCtr (s.thrCtr + 1#9) := rfl

theorem caDelay_eq : caDelay s =
    s.setDelay (if s.wires.recompute then delayOf s.wires.inp.tempo else s.delay) := by
  unfold caDelay; split <;> rfl

theorem caTick_eq : caTickInt (caTickExt s) =
    s.setWires { s.wires with
      tick := if s.modeExt then tickExtOf s.wires.inp.pulse s.pulsePrev else tickIntOf s.cyc s.delay } := by
  unfold caTickInt caTickExt
  by_cases h : s.modeExt = true <;> simp [h]

theorem caTickExt_eq : caTickExt s = s.setWires { s.wires with
    tick := if s.modeExt then tickExtOf s.wires.inp.pulse s.pulsePrev else s.wires.tick } := by
  unfold caTickExt; split <;> rfl

theorem caTickInt_eq : caTickInt s = s.setWires { s.wires with
    tick := if s.modeExt then s.wires.tick else tickIntOf s.cyc s.delay } := by
  unfold caTickInt; split <;> rfl

theorem caEdge_eq : caEdge s = s.setPulsePrev (if s.modeExt then s.wires.inp.pulse else s.pulsePrev) := by
  unfold caEdge; split <;> rfl

theorem caCyc_eq : caCyc s = s.setCyc (if s.wires.tick then 0#13 else sat13 (s.cyc.toNat + 1)) := by
  unfold caCyc; split <;> rfl

theorem caClkout_eq : caClkout s =
    s.setClkOut (if s.modeExt then s.clkOut else clkOutOf s.cyc (halfWindow s.delay)) := by
  unfold caClkout; split <;> rfl

theorem writeBit_getLsbD_self {n : Nat} (v : BitVec n) (i : Nat) : writeBit v i (v.getLsbD i) = v := by
  apply BitVec.eq_of_getLsbD_eq
  intro j _
  rw [getLsbD_writeBit]
  split
  · next h => rw [h.1]
  · rfl

theorem memWrite_memRead_self (ch : Ch) (i : BitVec 5) : s.memWrite ch i (s.memRead ch i) = s := by
  have : s.seq.set ch (s.seq.get ch) = s.seq := by cases ch <;> rfl
  simp [State.memWrite, State.memRead, writeBit_getLsbD_self, this]

theorem seClear_eq (ch : Ch) : seClear ch s =
    s.memWrite ch s.count (if s.clear && s.pressedNow ch then false else s.memRead ch s.count) := by
  unfold seClear; split
  · rfl
  · exact (memWrite_memRead_self s ch s.count).symm

/-- Whether SE.REC of `ch` writes its cell (42_step_engine_fsm.md R111). -/
def State.records (s : State) (ch : Ch) : Bool :=
  s.pressedNow ch && !s.clear && (allowFill ch || edgeOf (s.pressedNow ch) (s.pressedPrev.get ch))

theorem seRec_eq (ch : Ch) : seRec ch s =
    (s.setWires { s.wires with
      edge := s.wires.edge.set ch (edgeOf (s.pressedNow ch) (s.pressedPrev.get ch)) }).memWrite ch s.count
      (if s.records ch then true else s.memRead ch s.count) := by
  unfold seRec State.records
  by_cases h : (s.pressedNow ch && !s.clear &&
      (allowFill ch || edgeOf (s.pressedNow ch) (s.pressedPrev.get ch))) = true
  · simp only [h, if_true]
    exact if_pos h
  · simp only [h, Bool.false_eq_true, if_false]
    exact (if_neg h).trans (memWrite_memRead_self (s.setWires _) ch s.count).symm

theorem sePrev_eq (ch : Ch) : sePrev ch s = s.setPressedPrev ch (s.pressedNow ch) := rfl

theorem seAdv_eq : seAdv s =
    s.setCount (if s.wires.tick then nextCount s.count s.wires.ns else s.count) := by
  unfold seAdv; split <;> rfl

theorem gcThr_eq (ch : Ch) : gcThr ch s =
    s.setWires { s.wires with thr := s.wires.thr.set ch (thrOf (s.wires.inp.duty.get ch) s.delay) } := rfl

theorem gcGate_eq (ch : Ch) : gcGate ch s =
    s.setGate ch (gateOf (s.memRead ch s.count) s.cyc (s.wires.thr.get ch)) := rfl

theorem dmDet_eq : dmDet s =
    ((s.setWires { s.wires with stepsChanged := stepsChangedOf s.wires.ns s.numStepsPrev }).setDispCd
      (if stepsChangedOf s.wires.ns s.numStepsPrev then displayHold else s.dispCd)).setNumStepsPrev
      s.wires.ns := by
  unfold dmDet
  by_cases h : stepsChangedOf s.wires.ns s.numStepsPrev = true
  · simp [h]
  · have : s.wires.ns = s.numStepsPrev := by simpa [stepsChangedOf] using h
    simp [stepsChangedOf, this, State.setNumStepsPrev, State.setDispCd, State.setWires]

theorem dmSel_eq : dmSel s =
    (s.setDispCd (if 0#11 < s.dispCd then s.dispCd - 1#11 else s.dispCd)).setWires { s.wires with
      val := if 0#11 < s.dispCd then s.wires.ns.setWidth 5 else s.count } := by
  unfold dmSel
  by_cases h : 0#11 < s.dispCd
  · simp only [h, if_true]
  · simp only [h, if_false]; rfl

theorem dmEnc_eq : dmEnc s = s.setLed (encodeLed s.cfg.ledPerm s.wires.val s.led) := rfl

theorem present_eq : present s = s.setOut s.outWord := rfl

theorem endIteration_eq : endIteration s = s.setWires Wires.idle := rfl

@[simp] theorem pressedNow_setWires (w : Wires) (ch : Ch) :
    (s.setWires w).pressedNow ch = w.inp.btn.get ch := rfl
@[simp] theorem clear_setWires (w : Wires) : (s.setWires w).clear = w.inp.clear := rfl

end Sys2Proof.Machine
end

