-- ==== Sys2Proof/Laws/Exec.lean ====
section
/-! SUPPORT. What `exec` answers for a per-channel operation, for every channel at once. -/

namespace Sys2Proof.Machine

variable (ch : Ch) (s : State)

theorem exec_seClear : exec (.seClear ch) s = .next (seClear ch s) := by cases ch <;> rfl
theorem exec_seRec : exec (.seRec ch) s = .next (seRec ch s) := by cases ch <;> rfl
theorem exec_sePrev : exec (.sePrev ch) s = .next (sePrev ch s) := by cases ch <;> rfl
theorem exec_gcThr : exec (.gcThr ch) s = .next (gcThr ch s) := by cases ch <;> rfl
theorem exec_gcGate : exec (.gcGate ch) s = .next (gcGate ch s) := by cases ch <;> rfl
theorem exec_iter (inp : In) : exec (.iter inp) s = .next (iterate inp s) := rfl

end Sys2Proof.Machine
end

