-- ==== Sys2Proof/Laws/Iteration.lean ====
section
/-! SUPPORT. What one iteration leaves in each register, as a function of the sample and of the state
it began with: one lemma per field, which later proofs cite instead of unfolding ITER. -/

namespace Sys2Proof.Machine

variable (inp : In) (s : State)

/-- `delay` after the iteration. -/
def iterDelay : BitVec 13 :=
  if recomputeOf s.cfg.pDelay s.thrCtr then delayOf inp.tempo else s.delay

/-- `cyc` after the iteration. -/
def iterCyc : BitVec 13 := if tickOf inp s then 0#13 else sat13 (s.cyc.toNat + 1)

/-- `count` after the iteration. -/
def iterCount : BitVec 5 := if tickOf inp s then nextCount s.count (nsOf inp.steps) else s.count

/-- What the step engine leaves in the current step's cell of channel `ch`. -/
def iterCell (ch : Ch) : Bool :=
  if inp.btn.get ch then
    !inp.clear && (allowFill ch || !s.pressedPrev.get ch || s.memRead ch s.count)
  else s.memRead ch s.count

/-- `disp_cd` as DM.SEL reads it. -/
def iterHold : BitVec 11 :=
  if stepsChangedOf (nsOf inp.steps) s.numStepsPrev then displayHold else s.dispCd

/-- The value on the LEDs. -/
def iterVal : BitVec 5 :=
  if 0#11 < iterHold inp s then (nsOf inp.steps).setWidth 5 else iterCount inp s

theorem tickOf_eq : tickOf inp s =
    if inp.extSel then tickExtOf inp.pulse s.pulsePrev else tickIntOf s.cyc (iterDelay inp s) := by
  simp [tickOf, iterDelay, clockArbiter, caClkout_eq, caCyc_eq, caEdge_eq, caTick_eq, caDelay_eq, caThr_eq,
    caMode_eq, nsteps_eq, sample_eq]
  rfl

theorem clockArbiter_iter : clockArbiter (nsteps (sample inp s)) =
    ((((((s.setWires { s.wires with
        inp := inp, ns := nsOf inp.steps, modeDiff := modeDiffOf inp.extSel s.modeExt,
        recompute := recomputeOf s.cfg.pDelay s.thrCtr, tick := tickOf inp s }).setMode inp.extSel
        (if modeDiffOf inp.extSel s.modeExt then !inp.extSel else s.clkDir)).setThrCtr
        (s.thrCtr + 1#9)).setDelay (iterDelay inp s)).setPulsePrev
        (if inp.extSel then inp.pulse else s.pulsePrev)).setCyc (iterCyc inp s)).setClkOut
        (if inp.extSel then s.clkOut else clkOutOf (iterCyc inp s) (halfWindow (iterDelay inp s))) := by
  simp only [iterCyc, tickOf_eq, iterDelay, clockArbiter, caClkout_eq, caCyc_eq, caEdge_eq, caTick_eq,
    caDelay_eq, caThr_eq, caMode_eq, nsteps_eq, sample_eq]
  rfl

/-! The three per-channel operations of the step engine, for all channels. -/

/-- Steps 10 to 12 of an iteration. -/
def stepChannels : State := forCh sePrev (forCh seRec (forCh seClear s))

theorem stepChannels_count : (stepChannels s).count = s.count := by
  simp [stepChannels, forCh, sePrev_eq, seRec_eq, seClear_eq]
theorem stepChannels_wires_tick : (stepChannels s).wires.tick = s.wires.tick := by
  simp [stepChannels, forCh, sePrev_eq, seRec_eq, seClear_eq]
theorem stepChannels_wires_ns : (stepChannels s).wires.ns = s.wires.ns := by
  simp [stepChannels, forCh, sePrev_eq, seRec_eq, seClear_eq]

theorem stepEngine_eq : stepEngine s = (stepChannels s).setCount
    (if s.wires.tick then nextCount s.count s.wires.ns else s.count) := by
  rw [stepEngine, seAdv_eq, ← stepChannels, stepChannels_wires_tick, stepChannels_count, stepChannels_wires_ns]

/-! The step engine. -/

@[simp] theorem stepEngine_modeExt : (stepEngine s).modeExt = s.modeExt := by
  simp [stepEngine, forCh, seAdv_eq, sePrev_eq, seRec_eq, seClear_eq]
@[simp] theorem stepEngine_clkDir : (stepEngine s).clkDir = s.clkDir := by
  simp [stepEngine, forCh, seAdv_eq, sePrev_eq, seRec_eq, seClear_eq]
@[simp] theorem stepEngine_pulsePrev : (stepEngine s).pulsePrev = s.pulsePrev := by
  simp [stepEngine, forCh, seAdv_eq, sePrev_eq, seRec_eq, seClear_eq]
@[simp] theorem stepEngine_delay : (stepEngine s).delay = s.delay := by
  simp [stepEngine, forCh, seAdv_eq, sePrev_eq, seRec_eq, seClear_eq]
@[simp] theorem stepEngine_cyc : (stepEngine s).cyc = s.cyc := by
  simp [stepEngine, forCh, seAdv_eq, sePrev_eq, seRec_eq, seClear_eq]
@[simp] theorem stepEngine_thrCtr : (stepEngine s).thrCtr = s.thrCtr := by
  simp [stepEngine, forCh, seAdv_eq, sePrev_eq, seRec_eq, seClear_eq]
@[simp] theorem stepEngine_count : (stepEngine s).count =
    if s.wires.tick then nextCount s.count s.wires.ns else s.count := by
  rw [stepEngine_eq, setCount_count]
@[simp] theorem stepEngine_numStepsPrev : (stepEngine s).numStepsPrev = s.numStepsPrev := by
  simp [stepEngine, forCh, seAdv_eq, sePrev_eq, seRec_eq, seClear_eq]
@[simp] theorem stepEngine_dispCd : (stepEngine s).dispCd = s.dispCd := by
  simp [stepEngine, forCh, seAdv_eq, sePrev_eq, seRec_eq, seClear_eq]
@[simp] theorem stepEngine_gate : (stepEngine s).gate = s.gate := by
  simp [stepEngine, forCh, seAdv_eq, sePrev_eq, seRec_eq, seClear_eq]
@[simp] theorem stepEngine_clkOut : (stepEngine s).clkOut = s.clkOut := by
  simp [stepEngine, forCh, seAdv_eq, sePrev_eq, seRec_eq, seClear_eq]
@[simp] theorem stepEngine_led : (stepEngine s).led = s.led := by
  simp [stepEngine, forCh, seAdv_eq, sePrev_eq, seRec_eq, seClear_eq]
@[simp] theorem stepEngine_out : (stepEngine s).out = s.out := by
  simp [stepEngine, forCh, seAdv_eq, sePrev_eq, seRec_eq, seClear_eq]
@[simp] theorem stepEngine_cfg : (stepEngine s).cfg = s.cfg := by
  simp [stepEngine, forCh, seAdv_eq, sePrev_eq, seRec_eq, seClear_eq]
@[simp] theorem stepEngine_pending : (stepEngine s).pending = s.pending := by
  simp [stepEngine, forCh, seAdv_eq, sePrev_eq, seRec_eq, seClear_eq]
@[simp] theorem stepEngine_drawn : (stepEngine s).drawn = s.drawn := by
  simp [stepEngine, forCh, seAdv_eq, sePrev_eq, seRec_eq, seClear_eq]
@[simp] theorem stepEngine_wires_inp : (stepEngine s).wires.inp = s.wires.inp := by
  simp [stepEngine, forCh, seAdv_eq, sePrev_eq, seRec_eq, seClear_eq]
@[simp] theorem stepEngine_wires_ns : (stepEngine s).wires.ns = s.wires.ns := by
  simp [stepEngine, forCh, seAdv_eq, sePrev_eq, seRec_eq, seClear_eq]
@[simp] theorem stepEngine_wires_modeDiff : (stepEngine s).wires.modeDiff = s.wires.modeDiff := by
  simp [stepEngine, forCh, seAdv_eq, sePrev_eq, seRec_eq, seClear_eq]
@[simp] theorem stepEngine_wires_recompute : (stepEngine s).wires.recompute = s.wires.recompute := by
  simp [stepEngine, forCh, seAdv_eq, sePrev_eq, seRec_eq, seClear_eq]
@[simp] theorem stepEngine_wires_tick : (stepEngine s).wires.tick = s.wires.tick := by
  simp [stepEngine, forCh, seAdv_eq, sePrev_eq, seRec_eq, seClear_eq]
@[simp] theorem stepEngine_wires_thr : (stepEngine s).wires.thr = s.wires.thr := by
  simp [stepEngine, forCh, seAdv_eq, sePrev_eq, seRec_eq, seClear_eq]
@[simp] theorem stepEngine_wires_stepsChanged : (stepEngine s).wires.stepsChanged = s.wires.stepsChanged := by
  simp [stepEngine, forCh, seAdv_eq, sePrev_eq, seRec_eq, seClear_eq]
@[simp] theorem stepEngine_wires_val : (stepEngine s).wires.val = s.wires.val := by
  simp [stepEngine, forCh, seAdv_eq, sePrev_eq, seRec_eq, seClear_eq]

@[simp] theorem stepEngine_pressedPrev : (stepEngine s).pressedPrev = s.wires.inp.btn := by
  apply PerCh.ext_get
  intro ch
  cases ch <;> simp [stepEngine, forCh, seAdv_eq, sePrev_eq, seRec_eq, seClear_eq, State.pressedNow]

/-- The step engine writes only the current step's cells. -/
theorem stepEngine_memRead (ch : Ch) (i : BitVec 5) : (stepEngine s).memRead ch i =
    if i = s.count then
      (if s.wires.inp.btn.get ch then
        !s.wires.inp.clear && (allowFill ch || !s.pressedPrev.get ch || s.memRead ch s.count)
       else s.memRead ch s.count)
    else s.memRead ch i := by
  by_cases h : i = s.count
  · subst h
    cases ch <;>
    · simp [stepEngine, forCh, seAdv_eq, sePrev_eq, seRec_eq, seClear_eq, memRead_memWrite,
        State.records, State.pressedNow, State.clear, edgeOf]
      grind
  · simp [h, stepEngine, forCh, seAdv_eq, sePrev_eq, seRec_eq, seClear_eq, memRead_memWrite]

/-! The gate calculator. -/

@[simp] theorem gateCalculator_modeExt : (gateCalculator s).modeExt = s.modeExt := by
  simp [gateCalculator, forCh, gcGate_eq, gcThr_eq]
@[simp] theorem gateCalculator_clkDir : (gateCalculator s).clkDir = s.clkDir := by
  simp [gateCalculator, forCh, gcGate_eq, gcThr_eq]
@[simp] theorem gateCalculator_pulsePrev : (gateCalculator s).pulsePrev = s.pulsePrev := by
  simp [gateCalculator, forCh, gcGate_eq, gcThr_eq]
@[simp] theorem gateCalculator_delay : (gateCalculator s).delay = s.delay := by
  simp [gateCalculator, forCh, gcGate_eq, gcThr_eq]
@[simp] theorem gateCalculator_cyc : (gateCalculator s).cyc = s.cyc := by
  simp [gateCalculator, forCh, gcGate_eq, gcThr_eq]
@[simp] theorem gateCalculator_thrCtr : (gateCalculator s).thrCtr = s.thrCtr := by
  simp [gateCalculator, forCh, gcGate_eq, gcThr_eq]
@[simp] theorem gateCalculator_count : (gateCalculator s).count = s.count := by
  simp [gateCalculator, forCh, gcGate_eq, gcThr_eq]
@[simp] theorem gateCalculator_numStepsPrev : (gateCalculator s).numStepsPrev = s.numStepsPrev := by
  simp [gateCalculator, forCh, gcGate_eq, gcThr_eq]
@[simp] theorem gateCalculator_dispCd : (gateCalculator s).dispCd = s.dispCd := by
  simp [gateCalculator, forCh, gcGate_eq, gcThr_eq]
@[simp] theorem gateCalculator_pressedPrev : (gateCalculator s).pressedPrev = s.pressedPrev := by
  simp [gateCalculator, forCh, gcGate_eq, gcThr_eq]
@[simp] theorem gateCalculator_seq : (gateCalculator s).seq = s.seq := by
  simp [gateCalculator, forCh, gcGate_eq, gcThr_eq]
@[simp] theorem gateCalculator_clkOut : (gateCalculator s).clkOut = s.clkOut := by
  simp [gateCalculator, forCh, gcGate_eq, gcThr_eq]
@[simp] theorem gateCalculator_led : (gateCalculator s).led = s.led := by
  simp [gateCalculator, forCh, gcGate_eq, gcThr_eq]
@[simp] theorem gateCalculator_out : (gateCalculator s).out = s.out := by
  simp [gateCalculator, forCh, gcGate_eq, gcThr_eq]
@[simp] theorem gateCalculator_cfg : (gateCalculator s).cfg = s.cfg := by
  simp [gateCalculator, forCh, gcGate_eq, gcThr_eq]
@[simp] theorem gateCalculator_pending : (gateCalculator s).pending = s.pending := by
  simp [gateCalculator, forCh, gcGate_eq, gcThr_eq]
@[simp] theorem gateCalculator_drawn : (gateCalculator s).drawn = s.drawn := by
  simp [gateCalculator, forCh, gcGate_eq, gcThr_eq]
@[simp] theorem gateCalculator_wires_inp : (gateCalculator s).wires.inp = s.wires.inp := by
  simp [gateCalculator, forCh, gcGate_eq, gcThr_eq]
@[simp] theorem gateCalculator_wires_ns : (gateCalculator s).wires.ns = s.wires.ns := by
  simp [gateCalculator, forCh, gcGate_eq, gcThr_eq]
@[simp] theorem gateCalculator_wires_modeDiff : (gateCalculator s).wires.modeDiff = s.wires.modeDiff := by
  simp [gateCalculator, forCh, gcGate_eq, gcThr_eq]
@[simp] theorem gateCalculator_wires_recompute : (gateCalculator s).wires.recompute = s.wires.recompute := by
  simp [gateCalculator, forCh, gcGate_eq, gcThr_eq]
@[simp] theorem gateCalculator_wires_tick : (gateCalculator s).wires.tick = s.wires.tick := by
  simp [gateCalculator, forCh, gcGate_eq, gcThr_eq]
@[simp] theorem gateCalculator_wires_edge : (gateCalculator s).wires.edge = s.wires.edge := by
  simp [gateCalculator, forCh, gcGate_eq, gcThr_eq]
@[simp] theorem gateCalculator_wires_stepsChanged : (gateCalculator s).wires.stepsChanged = s.wires.stepsChanged := by
  simp [gateCalculator, forCh, gcGate_eq, gcThr_eq]
@[simp] theorem gateCalculator_wires_val : (gateCalculator s).wires.val = s.wires.val := by
  simp [gateCalculator, forCh, gcGate_eq, gcThr_eq]

theorem gateCalculator_gate (ch : Ch) : (gateCalculator s).gate.get ch =
    gateOf (s.memRead ch s.count) s.cyc (thrOf (s.wires.inp.duty.get ch) s.delay) := by
  cases ch <;> simp [gateCalculator, forCh, gcGate_eq, gcThr_eq]

/-! The display multiplexer. -/

/-- `disp_cd` as DM.SEL reads it, for the wires and registers of `s`. -/
def holdOf : BitVec 11 := if stepsChangedOf s.wires.ns s.numStepsPrev then displayHold else s.dispCd

@[simp] theorem displayMux_modeExt : (displayMux s).modeExt = s.modeExt := by
  simp [displayMux, dmEnc_eq, dmSel_eq, dmDet_eq]
@[simp] theorem displayMux_clkDir : (displayMux s).clkDir = s.clkDir := by
  simp [displayMux, dmEnc_eq, dmSel_eq, dmDet_eq]
@[simp] theorem displayMux_pulsePrev : (displayMux s).pulsePrev = s.pulsePrev := by
  simp [displayMux, dmEnc_eq, dmSel_eq, dmDet_eq]
@[simp] theorem displayMux_delay : (displayMux s).delay = s.delay := by
  simp [displayMux, dmEnc_eq, dmSel_eq, dmDet_eq]
@[simp] theorem displayMux_cyc : (displayMux s).cyc = s.cyc := by
  simp [displayMux, dmEnc_eq, dmSel_eq, dmDet_eq]
@[simp] theorem displayMux_thrCtr : (displayMux s).thrCtr = s.thrCtr := by
  simp [displayMux, dmEnc_eq, dmSel_eq, dmDet_eq]
@[simp] theorem displayMux_count : (displayMux s).count = s.count := by
  simp [displayMux, dmEnc_eq, dmSel_eq, dmDet_eq]
@[simp] theorem displayMux_pressedPrev : (displayMux s).pressedPrev = s.pressedPrev := by
  simp [displayMux, dmEnc_eq, dmSel_eq, dmDet_eq]
@[simp] theorem displayMux_seq : (displayMux s).seq = s.seq := by
  simp [displayMux, dmEnc_eq, dmSel_eq, dmDet_eq]
@[simp] theorem displayMux_gate : (displayMux s).gate = s.gate := by
  simp [displayMux, dmEnc_eq, dmSel_eq, dmDet_eq]
@[simp] theorem displayMux_clkOut : (displayMux s).clkOut = s.clkOut := by
  simp [displayMux, dmEnc_eq, dmSel_eq, dmDet_eq]
@[simp] theorem displayMux_out : (displayMux s).out = s.out := by
  simp [displayMux, dmEnc_eq, dmSel_eq, dmDet_eq]
@[simp] theorem displayMux_cfg : (displayMux s).cfg = s.cfg := by
  simp [displayMux, dmEnc_eq, dmSel_eq, dmDet_eq]
@[simp] theorem displayMux_pending : (displayMux s).pending = s.pending := by
  simp [displayMux, dmEnc_eq, dmSel_eq, dmDet_eq]
@[simp] theorem displayMux_drawn : (displayMux s).drawn = s.drawn := by
  simp [displayMux, dmEnc_eq, dmSel_eq, dmDet_eq]
@[simp] theorem displayMux_numStepsPrev : (displayMux s).numStepsPrev = s.wires.ns := by
  simp [displayMux, dmEnc_eq, dmSel_eq, dmDet_eq]
@[simp] theorem displayMux_dispCd : (displayMux s).dispCd =
    if 0#11 < holdOf s then holdOf s - 1#11 else holdOf s := by
  simp only [displayMux, dmEnc_eq, dmSel_eq, dmDet_eq, holdOf]
  rfl
@[simp] theorem displayMux_led : (displayMux s).led =
    encodeLed s.cfg.ledPerm (if 0#11 < holdOf s then s.wires.ns.setWidth 5 else s.count) s.led := by
  simp only [displayMux, dmEnc_eq, dmSel_eq, dmDet_eq, holdOf]
  rfl

/-! ITER. -/

@[simp] theorem iterate_modeExt : (iterate inp s).modeExt = inp.extSel := by
  simp [iterate, endIteration_eq, present_eq, clockArbiter_iter]
@[simp] theorem iterate_clkDir : (iterate inp s).clkDir =
    if modeDiffOf inp.extSel s.modeExt then !inp.extSel else s.clkDir := by
  simp [iterate, endIteration_eq, present_eq, clockArbiter_iter]
@[simp] theorem iterate_pulsePrev : (iterate inp s).pulsePrev =
    if inp.extSel then inp.pulse else s.pulsePrev := by
  simp [iterate, endIteration_eq, present_eq, clockArbiter_iter]
@[simp] theorem iterate_delay : (iterate inp s).delay = iterDelay inp s := by
  simp [iterate, endIteration_eq, present_eq, clockArbiter_iter]
@[simp] theorem iterate_cyc : (iterate inp s).cyc = iterCyc inp s := by
  simp [iterate, endIteration_eq, present_eq, clockArbiter_iter]
@[simp] theorem iterate_thrCtr : (iterate inp s).thrCtr = s.thrCtr + 1#9 := by
  simp [iterate, endIteration_eq, present_eq, clockArbiter_iter]
@[simp] theorem iterate_numStepsPrev : (iterate inp s).numStepsPrev = nsOf inp.steps := by
  simp [iterate, endIteration_eq, present_eq, clockArbiter_iter]
@[simp] theorem iterate_pressedPrev : (iterate inp s).pressedPrev = inp.btn := by
  simp [iterate, endIteration_eq, present_eq, clockArbiter_iter]
@[simp] theorem iterate_clkOut : (iterate inp s).clkOut =
    if inp.extSel then s.clkOut else clkOutOf (iterCyc inp s) (halfWindow (iterDelay inp s)) := by
  simp [iterate, endIteration_eq, present_eq, clockArbiter_iter]
@[simp] theorem iterate_cfg : (iterate inp s).cfg = s.cfg := by
  simp [iterate, endIteration_eq, present_eq, clockArbiter_iter]
@[simp] theorem iterate_wires : (iterate inp s).wires = Wires.idle := by
  simp [iterate, endIteration_eq, present_eq, clockArbiter_iter]
@[simp] theorem iterate_pending : (iterate inp s).pending = s.pending := by
  simp [iterate, endIteration_eq, present_eq, clockArbiter_iter]
@[simp] theorem iterate_drawn : (iterate inp s).drawn = s.drawn := by
  simp [iterate, endIteration_eq, present_eq, clockArbiter_iter]
@[simp] theorem iterate_count : (iterate inp s).count = iterCount inp s := by
  simp only [iterate, endIteration_eq, present_eq, setWires_count, setOut_count, displayMux_count,
    gateCalculator_count, stepEngine_count, clockArbiter_iter]
  rfl
theorem holdOf_iter :
    holdOf (gateCalculator (stepEngine (clockArbiter (nsteps (sample inp s))))) = iterHold inp s := by
  simp only [holdOf, gateCalculator_wires_ns, gateCalculator_numStepsPrev, gateCalculator_dispCd,
    stepEngine_wires_ns, stepEngine_numStepsPrev, stepEngine_dispCd, clockArbiter_iter]
  rfl
@[simp] theorem iterate_dispCd : (iterate inp s).dispCd =
    if 0#11 < iterHold inp s then iterHold inp s - 1#11 else iterHold inp s := by
  simp only [iterate, endIteration_eq, present_eq, setWires_dispCd, setOut_dispCd, displayMux_dispCd,
    holdOf_iter]
@[simp] theorem iterate_led : (iterate inp s).led = encodeLed s.cfg.ledPerm (iterVal inp s) s.led := by
  simp only [iterate, endIteration_eq, present_eq, setWires_led, setOut_led, displayMux_led, holdOf_iter]
  simp only [gateCalculator_count, stepEngine_count, gateCalculator_wires_ns, stepEngine_wires_ns, clockArbiter_iter,
    gateCalculator_cfg, stepEngine_cfg, gateCalculator_led, stepEngine_led]
  rfl

theorem displayMux_memRead : (displayMux s).memRead = s.memRead := by
  unfold State.memRead; rw [displayMux_seq]

theorem gateCalculator_memRead : (gateCalculator s).memRead = s.memRead := by
  unfold State.memRead; rw [gateCalculator_seq]

/-- ITER writes only the current step's cells (42_step_engine_fsm.md R110, R111). -/
theorem iterate_memRead (ch : Ch) (i : BitVec 5) : (iterate inp s).memRead ch i =
    if i = s.count then iterCell inp s ch else s.memRead ch i := by
  simp only [iterate, endIteration_eq, present_eq, setWires_memRead, setOut_memRead, displayMux_memRead,
    gateCalculator_memRead, stepEngine_memRead, clockArbiter_iter]
  rfl

/-- The gate sees the new `count`, `cyc`, `delay` and cell (40_iteration.md R86). -/
theorem iterate_gate (ch : Ch) : (iterate inp s).gate.get ch =
    gateOf ((iterate inp s).memRead ch (iterCount inp s)) (iterCyc inp s)
      (thrOf (inp.duty.get ch) (iterDelay inp s)) := by
  simp only [iterate, endIteration_eq, present_eq, setWires_gate, setOut_gate, displayMux_gate,
    gateCalculator_gate, setWires_memRead, setOut_memRead, displayMux_memRead, gateCalculator_memRead,
    stepEngine_count, stepEngine_cyc, stepEngine_delay, stepEngine_wires_inp, clockArbiter_iter]
  rfl

theorem present_out : (endIteration (present s)).out = (endIteration (present s)).outWord := rfl

/-- The pins show the output registers at the end of the iteration (40_iteration.md R83). -/
theorem iterate_out : (iterate inp s).out = (iterate inp s).outWord := present_out _

end Sys2Proof.Machine
end

