-- ==== Sys2Proof/Laws/Operands.lean ====
section
/-! SUPPORT. The operand derivations as arithmetic on natural numbers, and the LED encoding read back
line by line. -/

namespace Sys2Proof.Machine

theorem nsOf_toNat (steps : Reading) : (nsOf steps).toNat = steps.toNat / 128 + 1 := by
  have h := steps.isLt
  simp only [nsOf, BitVec.toNat_add, BitVec.toNat_setWidth, BitVec.extractLsb'_toNat, Nat.shiftRight_eq_div_pow,
    BitVec.toNat_ofNat]
  omega

theorem delayOf_toNat (tempo : Reading) : (delayOf tempo).toNat = 4224 - tempo.toNat := by
  have h := tempo.isLt
  simp only [delayOf, delayBase, BitVec.toNat_sub, BitVec.toNat_setWidth, BitVec.toNat_ofNat]
  omega

theorem halfWindow_toNat (delay : BitVec 13) : (halfWindow delay).toNat = delay.toNat / 2 := by
  have h := delay.isLt
  simp only [halfWindow, BitVec.toNat_setWidth, BitVec.toNat_ushiftRight, Nat.shiftRight_eq_div_pow]
  omega

theorem sat13_toNat (v : Nat) : (sat13 v).toNat = min v 8191 := by
  simp only [sat13, BitVec.toNat_ofNat]
  omega

theorem nextCount_toNat (count : BitVec 5) (ns : BitVec 6) (h : ns.toNat ≤ 32) :
    (nextCount count ns).toNat = if ns.toNat ≤ count.toNat + 1 then 0 else count.toNat + 1 := by
  have hc := count.isLt
  have hle : (ns ≤ count.setWidth 6 + 1#6) ↔ ns.toNat ≤ count.toNat + 1 := by
    rw [BitVec.le_def]
    simp only [BitVec.toNat_add, BitVec.toNat_setWidth, BitVec.toNat_ofNat]
    omega
  unfold nextCount
  by_cases hn : ns.toNat ≤ count.toNat + 1
  · rw [if_pos (hle.mpr hn), if_pos hn]; rfl
  · rw [if_neg (fun x => hn (hle.mp x)), if_neg hn]
    simp only [BitVec.toNat_add, BitVec.toNat_ofNat]
    omega

theorem thrOf_toNat (duty : Reading) (delay : BitVec 13) :
    (thrOf duty delay).toNat = max 1 (duty.toNat * delay.toNat / 4096) := by
  have hd := duty.isLt
  have he := delay.isLt
  have hp : duty.toNat * delay.toNat ≤ 4095 * 8191 := Nat.mul_le_mul (by omega) (by omega)
  have hq : (((duty.setWidth 25 * delay.setWidth 25 : BitVec 25) >>> 12).setWidth 13).toNat =
      duty.toNat * delay.toNat / 4096 := by
    simp only [BitVec.toNat_setWidth, BitVec.toNat_ushiftRight, BitVec.toNat_mul, Nat.shiftRight_eq_div_pow]
    rw [Nat.mod_eq_of_lt (show duty.toNat < 2 ^ 25 by omega), Nat.mod_eq_of_lt (show delay.toNat < 2 ^ 25 by omega),
      Nat.mod_eq_of_lt (show duty.toNat * delay.toNat < 2 ^ 25 by omega)]
    omega
  unfold thrOf
  by_cases h0 : duty.toNat * delay.toNat / 4096 = 0
  · have : ((duty.setWidth 25 * delay.setWidth 25 : BitVec 25) >>> 12).setWidth 13 = 0#13 :=
      BitVec.eq_of_toNat_eq (by rw [hq, h0]; rfl)
    simp only [this, if_true, h0]; rfl
  · have : ((duty.setWidth 25 * delay.setWidth 25 : BitVec 25) >>> 12).setWidth 13 ≠ 0#13 := by
      intro hz; rw [hz] at hq; exact h0 hq.symm
    simp only [this, if_false, hq]
    omega

/-- Two bits go to one line only if they are the same bit: an admissible permutation is injective. -/
theorem ledPerm_line_injective {p : LedPerm} (h : p.wf = true) {j k : Fin 5} (e : p.line j = p.line k) :
    j = k := by
  simp only [LedPerm.wf, Bool.and_eq_true, decide_eq_true_eq, List.nodup_cons, List.mem_cons,
    List.not_mem_nil, or_false, not_or] at h
  obtain ⟨⟨⟨⟨h1, h2, h3, h4⟩, ⟨h5, h6, h7⟩, ⟨h8, h9⟩, h10, _⟩, _⟩, _⟩ := h
  revert e
  fin_cases j <;> fin_cases k <;> simp [LedPerm.line, *, Ne.symm, eq_comm] <;> simp_all [eq_comm]

/-- 44_display_mux_encoder.md R137: line `LED_PERM[k]` carries bit `k`. -/
theorem encodeLed_line {p : LedPerm} (h : p.wf = true) (val led : BitVec 5) (k : Fin 5) :
    (encodeLed p val led).getLsbD (p.line k).val = val.getLsbD k.val := by
  have inj : ∀ j, (p.line k).val = (p.line j).val ↔ k = j := fun j =>
    ⟨fun e => ledPerm_line_injective h (Fin.ext e), fun e => by rw [e]⟩
  simp only [encodeLed, List.foldl, getLsbD_writeBit, inj, (p.line _).isLt, and_true]
  fin_cases k <;> simp

end Sys2Proof.Machine
end

