-- ==== Sys2Proof/Laws/PerInstr.lean ====
section
/-! SUPPORT. A statement for every instruction: it is well formed, its row's pattern lies inside the
row's mask, and its encoding is a word on which the operation is considered (30_encoding.md R66). -/

namespace Sys2Proof.Laws.RowPattern

def Statement (i : Instr) : Prop :=
  i.wf = true ∧ i.row.pattern &&& i.row.mask = i.row.pattern ∧
    i.considered (In.ofWord (encode i)).ctl7 = true

/-- A row with no fixed bit is considered on every sample. -/
theorem of_no_fixed_bit (i : Instr) (hw : i.wf = true) (hp : i.row.pattern = 0#7) (hm : i.row.mask = 0#7) :
    Statement i := by
  refine ⟨hw, by rw [hp, hm]; rfl, ?_⟩
  rw [Instr.considered, hp, hm, BitVec.and_zero]; rfl

theorem iter (inp : In) : Statement (.iter inp) := of_no_fixed_bit _ rfl rfl rfl
theorem sample (inp : In) : Statement (.sample inp) := of_no_fixed_bit _ rfl rfl rfl
theorem nsteps : Statement .nsteps := of_no_fixed_bit _ rfl rfl rfl
theorem caMode : Statement .caMode := of_no_fixed_bit _ rfl rfl rfl
theorem caThr : Statement .caThr := of_no_fixed_bit _ rfl rfl rfl
theorem caDelay : Statement .caDelay := of_no_fixed_bit _ rfl rfl rfl
theorem caTickExt : Statement .caTickExt := by unfold Statement; decide
theorem caTickInt : Statement .caTickInt := by unfold Statement; decide
theorem caEdge : Statement .caEdge := by unfold Statement; decide
theorem caCyc : Statement .caCyc := of_no_fixed_bit _ rfl rfl rfl
theorem caClkout : Statement .caClkout := by unfold Statement; decide
theorem seClear0 : Statement .seClear0 := by unfold Statement; decide
theorem seClear1 : Statement .seClear1 := by unfold Statement; decide
theorem seClear2 : Statement .seClear2 := by unfold Statement; decide
theorem seClear3 : Statement .seClear3 := by unfold Statement; decide
theorem seRec0 : Statement .seRec0 := by unfold Statement; decide
theorem seRec1 : Statement .seRec1 := by unfold Statement; decide
theorem seRec2 : Statement .seRec2 := by unfold Statement; decide
theorem seRec3 : Statement .seRec3 := by unfold Statement; decide
theorem sePrev0 : Statement .sePrev0 := of_no_fixed_bit _ rfl rfl rfl
theorem sePrev1 : Statement .sePrev1 := of_no_fixed_bit _ rfl rfl rfl
theorem sePrev2 : Statement .sePrev2 := of_no_fixed_bit _ rfl rfl rfl
theorem sePrev3 : Statement .sePrev3 := of_no_fixed_bit _ rfl rfl rfl
theorem seAdv : Statement .seAdv := of_no_fixed_bit _ rfl rfl rfl
theorem gcThr0 : Statement .gcThr0 := of_no_fixed_bit _ rfl rfl rfl
theorem gcThr1 : Statement .gcThr1 := of_no_fixed_bit _ rfl rfl rfl
theorem gcThr2 : Statement .gcThr2 := of_no_fixed_bit _ rfl rfl rfl
theorem gcThr3 : Statement .gcThr3 := of_no_fixed_bit _ rfl rfl rfl
theorem gcGate0 : Statement .gcGate0 := of_no_fixed_bit _ rfl rfl rfl
theorem gcGate1 : Statement .gcGate1 := of_no_fixed_bit _ rfl rfl rfl
theorem gcGate2 : Statement .gcGate2 := of_no_fixed_bit _ rfl rfl rfl
theorem gcGate3 : Statement .gcGate3 := of_no_fixed_bit _ rfl rfl rfl
theorem dmDet : Statement .dmDet := of_no_fixed_bit _ rfl rfl rfl
theorem dmSel : Statement .dmSel := of_no_fixed_bit _ rfl rfl rfl
theorem dmEnc : Statement .dmEnc := of_no_fixed_bit _ rfl rfl rfl
theorem out : Statement .out := of_no_fixed_bit _ rfl rfl rfl

end Sys2Proof.Laws.RowPattern
end

