-- ==== Sys2Proof/Laws/Run.lean ====
section
/-! SUPPORT. A run of iterations, one sample at a time, and an iteration beside the environment's
events. -/

namespace Sys2Proof.Machine

variable (inp : In) (s : State)

/-- Two iterations on one sample from states that agree on what an iteration reads leave equal states
but for the fields they pass on. -/
theorem iterate_ext {a b : In} {s t : State} (hp : (iterate a s).pending = (iterate b t).pending)
    (hd : (iterate a s).drawn = (iterate b t).drawn) (hc : (iterate a s).cfg = (iterate b t).cfg)
    (hme : (iterate a s).modeExt = (iterate b t).modeExt)
    (hdir : (iterate a s).clkDir = (iterate b t).clkDir)
    (hpp : (iterate a s).pulsePrev = (iterate b t).pulsePrev)
    (hdel : (iterate a s).delay = (iterate b t).delay) (hcyc : (iterate a s).cyc = (iterate b t).cyc)
    (hthr : (iterate a s).thrCtr = (iterate b t).thrCtr)
    (hcnt : (iterate a s).count = (iterate b t).count)
    (hnsp : (iterate a s).numStepsPrev = (iterate b t).numStepsPrev)
    (hcd : (iterate a s).dispCd = (iterate b t).dispCd)
    (hprs : (iterate a s).pressedPrev = (iterate b t).pressedPrev)
    (hmem : ∀ ch i, (iterate a s).memRead ch i = (iterate b t).memRead ch i)
    (hgate : ∀ ch, (iterate a s).gate.get ch = (iterate b t).gate.get ch)
    (hclk : (iterate a s).clkOut = (iterate b t).clkOut)
    (hled : (iterate a s).led = (iterate b t).led) : iterate a s = iterate b t := by
  have hg := PerCh.ext_get hgate
  apply State.ext hme hdir hpp hdel hcyc hthr hcnt hnsp hcd hprs (seq_ext_memRead hmem) hg hclk hled _ hc
    (by simp) hp hd
  rw [iterate_out, iterate_out]
  simp only [State.outWord, State.outFields, hled, hg, hclk, hdir]

/-- The environment's events take no part in an iteration. -/
theorem iterate_pending_update (p : List Event) :
    iterate inp { s with pending := p } = { iterate inp s with pending := p } := by
  have h : ∀ x : State, ({ x with pending := p } : State).memRead = x.memRead := fun _ => rfl
  have hw : ∀ x : State, ({ x with pending := p } : State).outWord = x.outWord := fun _ => rfl
  have ht : tickOf inp { s with pending := p } = tickOf inp s := by simp only [tickOf_eq]; rfl
  have hc : iterCyc inp { s with pending := p } = iterCyc inp s := by simp only [iterCyc, ht]
  have hn : iterCount inp { s with pending := p } = iterCount inp s := by simp only [iterCount, ht]
  have hm : ∀ ch i, (iterate inp { s with pending := p }).memRead ch i = (iterate inp s).memRead ch i := by
    intro ch i; simp only [iterate_memRead]; rfl
  have hg : (iterate inp { s with pending := p }).gate = (iterate inp s).gate := by
    apply PerCh.ext_get; intro ch; rw [iterate_gate, iterate_gate, hm, hc, hn]; rfl
  have hl : (iterate inp { s with pending := p }).led = (iterate inp s).led := by
    rw [iterate_led, iterate_led]; simp only [iterVal, hn]; rfl
  have hk : (iterate inp { s with pending := p }).clkOut = (iterate inp s).clkOut := by
    rw [iterate_clkOut, iterate_clkOut, hc]; rfl
  have hd : (iterate inp { s with pending := p }).clkDir = (iterate inp s).clkDir := by
    rw [iterate_clkDir, iterate_clkDir]
  apply State.ext <;> try simp only [iterate_modeExt, iterate_pulsePrev, iterate_thrCtr, iterate_numStepsPrev,
    iterate_pressedPrev, iterate_cfg, iterate_wires, iterate_pending, iterate_drawn]
  · exact hd
  · rw [iterate_delay, iterate_delay]; rfl
  · rw [iterate_cyc, iterate_cyc, hc]
  · rw [iterate_count, iterate_count, hn]
  · rw [iterate_dispCd, iterate_dispCd]; rfl
  · exact seq_ext_memRead hm
  · exact hg
  · exact hk
  · exact hl
  · rw [iterate_out]; show _ = (iterate inp s).out; rw [iterate_out]
    simp only [State.outWord, State.outFields, hl, hg, hk, hd]

theorem step_sample (w : InWord) (es : List Event) :
    step { s with pending := .sample w :: es } = .next (iterate (In.ofWord w) { s with pending := es }) := rfl

theorem runSteps_zero : runSteps 0 s = .next s := rfl

theorem core_run_succ (C : Host.Core) {s t : C.State} (h : C.step s = .next t) (n : Nat) :
    C.run (n + 1) s = C.run n t := by
  rw [Host.Core.run, h]

/-- A run of one step more, from the state the first step leaves. -/
theorem runSteps_succ {s t : State} (h : step s = .next t) (n : Nat) : runSteps (n + 1) s = runSteps n t :=
  core_run_succ Sys2Proof.core h n

theorem runIterations_nil : runIterations [] s = .next s := rfl

theorem runIterations_cons (inps : List In) :
    runIterations (inp :: inps) s = runIterations inps (iterate inp s) := by
  have h : step (s.withSamples (inp :: inps)) = .next ((iterate inp s).withSamples inps) := by
    show step { s with pending := .sample inp.toWord ::
      (inps.map (fun i => Event.sample i.toWord) ++ s.pending) } = _
    rw [step_sample, In.ofWord_toWord, iterate_pending_update]
    simp [State.withSamples]
  exact runSteps_succ h inps.length

/-- A run always ends in a state: the iterations, one after another. -/
theorem runIterations_eq (inps : List In) :
    runIterations inps s = .next (inps.foldl (fun s inp => iterate inp s) s) := by
  induction inps generalizing s with
  | nil => rfl
  | cons inp inps ih => rw [runIterations_cons, ih]; rfl

end Sys2Proof.Machine
end

