-- ==== Sys2Proof/Tests/Slice0.lean ====
section
/-! SUPPORT. Tests of the model. Every expected number is copied from the vectors and traces of
spec/95_test_vectors.md (named in each theorem or its comment) or worked out from the encodings of
spec/30_encoding.md. After the tests come the witnesses: states and operands that meet the hypotheses
of the statements in Certificates/Slice0/Obligations.lean. -/

namespace Sys2Proof.Tests

open Sys2Proof Sys2Proof.Machine

/-! ## Ill-formed terms that the checks refuse -/

/-- 30_encoding.md R68: the container's bit above IN should be 0. -/
theorem test_containerWf_refuses_spare_bit :
    containerWf 0x80000000000000000000#80 = false ∧ containerWf 0x7FFFFFFFFFFFFFFFFFFF#80 = true := by decide

/-- 44_display_mux_encoder.md R140: two bits on one line. -/
theorem test_ledPerm_refuses_repeated_line : LedPerm.wf ⟨4, 4, 0, 1, 3⟩ = false := by decide
/-- R140: the identity. -/
theorem test_ledPerm_refuses_identity : LedPerm.wf ⟨0, 1, 2, 3, 4⟩ = false := by decide
/-- R140: bit 0 away from line 4. -/
theorem test_ledPerm_refuses_bit0_off_line4 : LedPerm.wf ⟨0, 4, 2, 1, 3⟩ = false := by decide
theorem test_ledPerm_accepts_default : Config.default.wf = true := by decide

/-- A binding in which every pin and every ADC channel is used once. -/
def pinsOk : PinMap :=
  { extSel := 0, clear := 1, clockPad := 2, btn := ⟨3, 4, 5, 6⟩, gate := ⟨7, 8, 9, 10⟩,
    led0 := 11, led1 := 12, led2 := 13, led3 := 14, led4 := 15, tempo := 0, steps := 1, duty := ⟨2, 3, 4, 5⟩ }

theorem test_pinMap_accepts_injective : pinsOk.wf = true := by decide
/-- 00_scope.md R7: two digital ports on one pin. -/
theorem test_pinMap_refuses_shared_pin : PinMap.wf { pinsOk with clear := 0 } = false := by decide
/-- 00_scope.md R7: two analog ports on one ADC channel. -/
theorem test_pinMap_refuses_shared_adc : PinMap.wf { pinsOk with steps := 0 } = false := by decide
theorem test_config_refuses_bad_pinMap :
    Config.wf { Config.default with pinMap := some { pinsOk with clear := 0 } } = false ∧
    Config.wf { Config.default with ledPerm := ⟨0, 1, 2, 3, 4⟩ } = false := by decide

/-- The registers of a well-formed state after its first iteration. -/
def ok : State := { State.reset with numStepsPrev := 4#6, cyc := 1#13 }

/-- 30_encoding.md R69: each listed bit pattern in an otherwise well-formed state is refused. -/
theorem test_inv_refuses_unreachable_states :
    ok.Inv ∧ ¬ ({ ok with clkDir := true, out := 0x400#11 } : State).Inv ∧
    ¬ ({ ok with delay := 128#13 } : State).Inv ∧ ¬ ({ ok with delay := 4225#13 } : State).Inv ∧
    ¬ ({ ok with numStepsPrev := 33#6 } : State).Inv ∧ ¬ ({ ok with numStepsPrev := 0#6 } : State).Inv ∧
    ¬ ({ ok with dispCd := 2001#11 } : State).Inv := by
  refine ⟨?_, ?_, ?_, ?_, ?_, ?_, ?_⟩ <;> decide

/-! ## Encodings -/

/-- V-EN-1 to V-EN-4. -/
theorem test_decode_control_bits :
    decode 0x00000000000000000000#79 = .iter In.zero ∧
    decode 0x00000000000000000001#79 = .iter { In.zero with extSel := true } ∧
    decode 0x00000000000000000002#79 = .iter { In.zero with pulse := true } ∧
    decode 0x00000000000000000004#79 = .iter { In.zero with clear := true } := by decide
/-- V-EN-5 to V-EN-8. -/
theorem test_decode_buttons_and_knobs :
    decode 0x00000000000000000008#79 = .iter { In.zero with btn := ⟨true, false, false, false⟩ } ∧
    decode 0x00000000000000000040#79 = .iter { In.zero with btn := ⟨false, false, false, true⟩ } ∧
    decode 0x0000000000000007FF80#79 = .iter { In.zero with tempo := 4095#12 } ∧
    decode 0x0000000000007FF80000#79 = .iter { In.zero with steps := 4095#12 } := by decide
/-- V-EN-9, V-EN-10. -/
theorem test_decode_duty :
    decode 0x0000000007FF80000000#79 = .iter { In.zero with duty := ⟨4095#12, 0#12, 0#12, 0#12⟩ } ∧
    decode 0x7FF80000000000000000#79 = .iter { In.zero with duty := ⟨0#12, 0#12, 0#12, 4095#12⟩ } := by decide

/-- The sample of V-EN-12. -/
def sample12 : In :=
  { extSel := true, pulse := true, clear := false, btn := ⟨true, false, true, false⟩,
    tempo := 3224#12, steps := 384#12, duty := ⟨1229#12, 2048#12, 0#12, 4095#12⟩ }

/-- V-EN-12, both directions, and V-EN-13. -/
theorem test_decode_encode_full_words :
    decode 0x7FF8004002668C064C2B#79 = .iter sample12 ∧ sample12.toWord = 0x7FF8004002668C064C2B#79 ∧
    decode 0x7FFFFFFFFFFFFFFFFFFF#79 = .iter (In.mk true true true (PerCh.const true) 4095#12 4095#12
      (PerCh.const 4095#12)) := by decide

/-- V-EN-12 in a ten-byte container, its spare bit set (30_encoding.md R68: ignored), and too few bytes. -/
theorem test_decodeBytes :
    decodeBytes [0x2B, 0x4C, 0x06, 0x8C, 0x66, 0x02, 0x40, 0x00, 0xF8, 0xFF, 0x11] =
      .ok (.iter sample12, [0x11]) ∧
    decodeBytes [0x2B, 0x4C, 0x06, 0x8C, 0x66, 0x02, 0x40, 0x00, 0xF8] = .error .shortContainer := by decide

/-- V-EN-12: CTL7 is 0101011; what acts and what does not, and SE.CLEAR, SE.REC of every channel. -/
theorem test_considered_sample12 :
    sample12.ctl7 = 0b0101011#7 ∧
    consideredOperations sample12 = [.sample sample12, .nsteps, .caMode, .caThr, .caDelay, .caTickExt,
      .caEdge, .caCyc, .seRec0, .seRec2, .sePrev0, .sePrev1, .sePrev2, .sePrev3, .seAdv,
      .gcThr0, .gcThr1, .gcThr2, .gcThr3, .gcGate0, .gcGate1, .gcGate2, .gcGate3,
      .dmDet, .dmSel, .dmEnc, .out] := by decide

/-- Words written out from the patterns of 30_encoding.md section 5, letters and analog fields 0: the
operation that each selects. -/
theorem test_encode_patterns :
    encode .caTickExt = 0b0000001#79 ∧ encode .caEdge = 0b0000001#79 ∧ encode .caTickInt = 0b0000000#79 ∧
    encode .seClear0 = 0b0001100#79 ∧ encode .seClear1 = 0b0010100#79 ∧ encode .seClear2 = 0b0100100#79 ∧
    encode .seClear3 = 0b1000100#79 ∧ encode .seRec0 = 0b0001000#79 ∧ encode .seRec1 = 0b0010000#79 ∧
    encode .seRec2 = 0b0100000#79 ∧ encode .seRec3 = 0b1000000#79 ∧ encode .out = 0#79 := by decide

/-- The table's order numbers rise along the operations of an iteration, and only the two TICK rows and
a channel's four copies share one (40_iteration.md section 1). -/
theorem test_operations_in_table_order :
    (operations sample12).map (fun i => i.row.order) =
      [1, 2, 3, 4, 5, 6, 6, 7, 8, 9, 10, 10, 10, 10, 11, 11, 11, 11, 12, 12, 12, 12, 13,
       14, 14, 14, 14, 15, 15, 15, 15, 16, 17, 18, 19] := by decide

/-- V-EN-21 to V-EN-24. -/
theorem test_out_words :
    Out.toWord ⟨0b00100#5, ⟨true, false, false, false⟩, true, true⟩ = 0x624#11 ∧
    clkPad 0x624#11 = some true ∧ clkPad 0x200#11 = none ∧
    Out.ofWord 0x054#11 = ⟨0b10100#5, ⟨false, true, false, false⟩, false, false⟩ := by decide

/-- A table word is the low bits of a container; the bits above are 0. -/
theorem test_decodeTableWord :
    decodeTableWord 7 0x0D = some (.iter { In.zero with extSel := true, clear := true, btn := ⟨true, false, false, false⟩ }) ∧
    decodeTableWord 7 0x80 = some (.iter In.zero) ∧ decodeTableWord 81 0 = none := by decide

/-! ## One iteration -/

/-- The state after the iteration on a word. -/
def after (w : InWord) (s : State) : Option State :=
  match exec (decode w) s with
  | .next t => some t
  | .fault _ => none
  | .refused _ => none

/-- 95_test_vectors.md sections 3.2 and 3.5: external mode, `delay = 129`, step count seen before. -/
def ext (ns : BitVec 6) : State := { State.reset with numStepsPrev := ns, delay := 129#13 }
/-- The same in internal mode. -/
def int (ns : BitVec 6) (delay cyc : BitVec 13) : State :=
  { ext ns with modeExt := false, clkDir := true, delay := delay, cyc := cyc }
/-- 95_test_vectors.md section 3.3: `num_steps_prev = 8, cyc = 9`. -/
def eng (count : BitVec 5) : State := { ext 8#6 with cyc := 9#13, count := count }
/-- V-CA-4: `P_DELAY = 512`, `delay = 1000`. -/
def throttled (thrCtr : BitVec 9) : State :=
  { ext 1#6 with cfg := { Config.default with pDelay := .p512 }, thrCtr := thrCtr, delay := 1000#13 }
/-- S7: `seq[0] = 5`, `delay = 1000`, four steps, internal mode. -/
def s7 (count : BitVec 5) (cyc : BitVec 13) : State :=
  { int 4#6 1000#13 cyc with count := count, seq := ⟨5#32, 0#32, 0#32, 0#32⟩ }

/-- S7a, S7b: the source's own example, 95_test_vectors.md section 2. -/
theorem test_iter_S7_step0 :
    (after 0x0000000002668C064C00#79 (s7 0#5 149#13)).map (fun t => (t.cyc, t.gate.ch0, t.out)) =
      some (150#13, true, 0x620#11) ∧
    (after 0x0000000002668C064C00#79 (s7 0#5 349#13)).map (fun t => (t.cyc, t.gate.ch0, t.out)) =
      some (350#13, false, 0x600#11) := by decide
/-- S7c, S7d. -/
theorem test_iter_S7_step1 :
    (after 0x0000000002668C064C00#79 (s7 1#5 149#13)).map (fun t => (t.gate.ch0, t.out)) =
      some (false, 0x610#11) ∧
    (after 0x0000000002668C064C00#79 (s7 1#5 0#13)).map (fun t => (t.cyc, t.gate.ch0, t.out)) =
      some (1#13, false, 0x610#11) := by decide

theorem test_caMode_V_CA_2 :
    (after 0x0000000000000007FF81#79 { int 1#6 129#13 10#13 with clkOut := true }).map
      (fun t => ((t.modeExt, t.clkDir, t.cyc), (t.clkOut, t.out, t.clkPad))) =
      some ((true, false, 11#13), (true, 0x200#11, none)) := by decide
theorem test_caMode_V_CA_11 :
    (after 0x0000000000000007FF83#79 (int 1#6 129#13 100#13)).map
      (fun t => (t.modeExt, t.clkDir, t.pulsePrev, t.cyc, t.out)) =
      some (true, false, true, 0#13, 0x000#11) := by decide
/-- V-CA-4a. -/
theorem test_caThr_V_CA_4a :
    (after 0x0000000000000007FF81#79 (throttled 5#9)).map (fun t => (t.delay, t.thrCtr)) = some (1000#13, 6#9) := by decide
/-- V-CA-4b, V-CA-4c. -/
theorem test_caThr_V_CA_4bc :
    (after 0x0000000000000007FF81#79 (throttled 0#9)).map (fun t => (t.delay, t.thrCtr)) = some (129#13, 1#9) ∧
    (after 0x0000000000000007FF81#79 (throttled 511#9)).map (fun t => (t.delay, t.thrCtr)) = some (1000#13, 0#9) := by decide
/-- V-CA-3a to V-CA-3d. -/
theorem test_caDelay_V_CA_3 :
    (after 0x00000000000000000001#79 (ext 1#6)).map (fun t => t.delay) = some 4224#13 ∧
    (after 0x00000000000000000081#79 (ext 1#6)).map (fun t => t.delay) = some 4223#13 ∧
    (after 0x00000000000000064C01#79 (ext 1#6)).map (fun t => t.delay) = some 1000#13 ∧
    (after 0x0000000000000007FF81#79 (ext 1#6)).map (fun t => t.delay) = some 129#13 := by decide
/-- V-CA-5a, V-CA-5b. -/
theorem test_caTickExt_V_CA_5ab :
    (after 0x0000000000000007FF81#79 { ext 1#6 with cyc := 7#13 }).map (fun t => (t.pulsePrev, t.cyc)) =
      some (false, 8#13) ∧
    (after 0x0000000000000007FF83#79 { ext 1#6 with cyc := 7#13 }).map (fun t => (t.pulsePrev, t.cyc, t.count)) =
      some (true, 0#13, 0#5) := by decide
/-- V-CA-5c, V-CA-5d. -/
theorem test_caTickExt_V_CA_5cd :
    (after 0x0000000000000007FF83#79 { ext 1#6 with cyc := 7#13, pulsePrev := true }).map
      (fun t => (t.pulsePrev, t.cyc)) = some (true, 8#13) ∧
    (after 0x0000000000000007FF81#79 { ext 1#6 with cyc := 7#13, pulsePrev := true }).map
      (fun t => (t.pulsePrev, t.cyc)) = some (false, 8#13) := by decide
/-- V-CA-6a, V-CA-6b. -/
theorem test_caTickInt_V_CA_6 :
    (after 0x0000000000000007FF80#79 (int 1#6 129#13 128#13)).map (fun t => (t.cyc, t.clkOut, t.out)) =
      some (129#13, false, 0x400#11) ∧
    (after 0x0000000000000007FF80#79 (int 1#6 129#13 129#13)).map (fun t => (t.cyc, t.clkOut, t.out)) =
      some (0#13, true, 0x600#11) := by decide
/-- V-CA-7 (a lower `delay` acts at once) and V-CA-12 (a tick in the iteration of a mode switch). -/
theorem test_caTickInt_V_CA_7_12 :
    (after 0x0000000000000007FF80#79 (int 1#6 1000#13 500#13)).map (fun t => (t.delay, t.cyc, t.clkOut)) =
      some (129#13, 0#13, true) ∧
    (after 0x0000000000000007FF80#79 { ext 1#6 with cyc := 5000#13 }).map
      (fun t => (t.modeExt, t.clkDir, t.cyc, t.clkOut, t.out)) = some (false, true, 0#13, true, 0x600#11) := by decide
theorem test_caEdge_V_CA_10 :
    (after 0x0000000000000007FF80#79 { int 1#6 129#13 3#13 with pulsePrev := true, clkOut := true }).map
      (fun t => (t.pulsePrev, t.cyc)) = some (true, 4#13) := by decide
/-- V-CA-9a, V-CA-9b. -/
theorem test_caCyc_V_CA_9 :
    (after 0x0000000000000007FF81#79 { ext 1#6 with cyc := 8190#13 }).map (fun t => t.cyc) = some 8191#13 ∧
    (after 0x0000000000000007FF81#79 { ext 1#6 with cyc := 8191#13 }).map (fun t => t.cyc) = some 8191#13 := by decide
/-- V-CA-8a, V-CA-8b. -/
theorem test_caClkout_V_CA_8ab :
    (after 0x0000000000000007FF80#79 { int 1#6 129#13 62#13 with clkOut := true }).map
      (fun t => (t.cyc, t.clkOut, t.out)) = some (63#13, true, 0x600#11) ∧
    (after 0x0000000000000007FF80#79 { int 1#6 129#13 63#13 with clkOut := true }).map
      (fun t => (t.cyc, t.clkOut, t.out)) = some (64#13, false, 0x400#11) := by decide
/-- V-CA-8c, V-CA-8d. -/
theorem test_caClkout_V_CA_8cd :
    (after 0x00000000000000064C00#79 { int 1#6 1000#13 498#13 with clkOut := true }).map
      (fun t => (t.cyc, t.clkOut)) = some (499#13, true) ∧
    (after 0x00000000000000064C00#79 { int 1#6 1000#13 499#13 with clkOut := true }).map
      (fun t => (t.cyc, t.clkOut)) = some (500#13, false) := by decide

/-- V-SE-1, V-SE-2: the fill channel. -/
theorem test_seRec0_V_SE_1_2 :
    (after 0x0000000000001C07FF89#79 (eng 3#5)).map (fun t => (t.seq, t.pressedPrev, t.led, t.out)) =
      some (⟨8#32, 0#32, 0#32, 0#32⟩, ⟨true, false, false, false⟩, 0b10100#5, 0x014#11) ∧
    (after 0x0000000000001C07FF89#79 { eng 3#5 with pressedPrev := ⟨true, false, false, false⟩ }).map
      (fun t => t.seq.ch0) = some 8#32 := by decide
/-- V-SE-10: a press while `count` is above the step count. -/
theorem test_seRec0_V_SE_10 :
    (after 0x0000000000000C07FF89#79 { eng 10#5 with numStepsPrev := 4#6 }).map
      (fun t => (t.count, t.seq.ch0, t.led)) = some (10#5, 0x00000400#32, 0b00110#5) := by decide
/-- V-SE-3, V-SE-4: a non-fill channel. -/
theorem test_seRec1_V_SE_3_4 :
    (after 0x0000000000001C07FF91#79 (eng 3#5)).map (fun t => (t.seq.ch1, t.pressedPrev)) =
      some (8#32, ⟨false, true, false, false⟩) ∧
    (after 0x0000000000001C07FF91#79 { eng 3#5 with pressedPrev := ⟨false, true, false, false⟩ }).map
      (fun t => t.seq.ch1) = some 0#32 := by decide
/-- V-SE-7b. -/
theorem test_seRec1_V_SE_7b :
    (after 0x0000000000001C07FF91#79 { eng 3#5 with pressedPrev := ⟨false, true, false, false⟩ }).map
      (fun t => t.seq) = some (PerCh.const 0#32) := by decide
/-- V-SE-14: every channel records. -/
theorem test_seRec2_V_SE_14 :
    (after 0x0000000000001C07FFF9#79 (eng 5#5)).map (fun t => (t.seq, t.pressedPrev, t.led)) =
      some (PerCh.const 0x20#32, PerCh.const true, 0b10001#5) := by decide
/-- V-SE-15: held, only the fill channel writes. -/
theorem test_seRec3_V_SE_15 :
    (after 0x0000000000001C07FFF9#79 { eng 5#5 with pressedPrev := PerCh.const true }).map (fun t => t.seq) =
      some ⟨0x20#32, 0#32, 0#32, 0#32⟩ := by decide
/-- V-SE-7a: clear wins, the button memory follows the button. -/
theorem test_sePrev1_V_SE_7a :
    (after 0x0000000000001C07FF95#79 (eng 3#5)).map (fun t => (t.seq, t.pressedPrev)) =
      some (PerCh.const 0#32, ⟨false, true, false, false⟩) := by decide
/-- V-SE-5. -/
theorem test_seClear2_V_SE_5 :
    (after 0x0000000000001C07FFA5#79 { eng 3#5 with seq := ⟨0#32, 0x8#32, 0x18#32, 0#32⟩ }).map
      (fun t => (t.seq, t.pressedPrev)) =
      some (⟨0#32, 0x8#32, 0x10#32, 0#32⟩, ⟨false, false, true, false⟩) := by decide
/-- V-SE-6: clear without a button. -/
theorem test_seClear2_V_SE_6 :
    (after 0x0000000000001C07FF85#79 { eng 3#5 with seq := ⟨0#32, 0#32, 0x8#32, 0#32⟩ }).map
      (fun t => t.seq.ch2) = some 0x8#32 := by decide
/-- V-SE-8a, V-SE-8b, V-SE-9: advance, wrap, and the clamp that is no modulo. -/
theorem test_seAdv_V_SE_8_9 :
    (after 0x0000000000000C07FF83#79 { eng 2#5 with numStepsPrev := 4#6 }).map (fun t => (t.count, t.led)) =
      some (3#5, 0b10100#5) ∧
    (after 0x0000000000000C07FF83#79 { eng 3#5 with numStepsPrev := 4#6 }).map (fun t => (t.count, t.led)) =
      some (0#5, 0b00000#5) ∧
    (after 0x0000000000000C07FF83#79 { eng 10#5 with numStepsPrev := 4#6 }).map (fun t => t.count) =
      some 0#5 := by decide
/-- V-SE-12, V-SE-13a, V-SE-13b: `ns = 1` and `ns = 32`. -/
theorem test_seAdv_V_SE_12_13 :
    (after 0x0000000000000007FF83#79 { eng 0#5 with numStepsPrev := 1#6 }).map (fun t => t.count) = some 0#5 ∧
    (after 0x0000000000007C07FF83#79 { eng 30#5 with numStepsPrev := 32#6 }).map (fun t => (t.count, t.out)) =
      some (31#5, 0x01F#11) ∧
    (after 0x0000000000007FFFFF83#79 { eng 31#5 with numStepsPrev := 32#6 }).map (fun t => t.count) =
      some 0#5 := by decide
/-- V-SE-11: a press and a tick together. -/
theorem test_iter_V_SE_11 :
    (after 0x0000000007FF9C07FF8B#79 (eng 3#5)).map (fun t => (t.seq.ch0, t.count, t.gate.ch0, t.out)) =
      some (8#32, 4#5, false, 0x001#11) := by decide
/-- V-SE-16: the knob lowered in a tick iteration. -/
theorem test_nsteps_V_SE_16 :
    (after 0x0000000000000BFFFF83#79 { eng 3#5 with numStepsPrev := 4#6 }).map
      (fun t => (t.count, t.numStepsPrev, t.dispCd, t.led)) = some (0#5, 3#6, 1999#11, 0b10100#5) := by decide
/-- The table of step counts of 95_test_vectors.md section 3.1. -/
theorem test_nsteps_table :
    [0#12, 127#12, 128#12, 255#12, 383#12, 384#12, 511#12, 896#12, 1023#12, 1024#12, 3967#12, 3968#12,
      4095#12].map nsOf = [1, 1, 2, 2, 3, 4, 4, 8, 8, 9, 31, 32, 32] := by decide

/-- V-GC-1 to V-GC-10. -/
theorem test_gcThr_low :
    [(0#12, 129#13), (0#12, 4224#13), (31#12, 129#13), (32#12, 129#13), (63#12, 129#13), (64#12, 129#13),
      (2048#12, 129#13), (4095#12, 129#13), (4#12, 1000#13), (5#12, 1000#13)].map (fun p => thrOf p.1 p.2) =
      [1, 1, 1, 1, 1, 2, 64, 128, 1, 1] := by decide
/-- V-GC-11 to V-GC-19. -/
theorem test_gcThr_high :
    [(1228#12, 1000#13), (1229#12, 1000#13), (1232#12, 1000#13), (1233#12, 1000#13), (2048#12, 1000#13),
      (4095#12, 1000#13), (1#12, 4224#13), (2048#12, 4224#13), (4095#12, 4224#13)].map (fun p => thrOf p.1 p.2) =
      [299, 300, 300, 301, 500, 999, 1, 2112, 4222] := by decide
/-- V-GC-20, V-GC-21, V-GC-22. -/
theorem test_gcGate0_V_GC_20_22 :
    (after 0x0000000002668C064C00#79 (s7 0#5 298#13)).map (fun t => (t.gate.ch0, t.out)) = some (true, 0x620#11) ∧
    (after 0x0000000002668C064C00#79 (s7 0#5 299#13)).map (fun t => (t.gate.ch0, t.out)) = some (false, 0x600#11) ∧
    (after 0x0000000002668C064C00#79 (s7 3#5 1000#13)).map (fun t => (t.cyc, t.count, t.gate.ch0, t.out)) =
      some (0#13, 0#5, true, 0x620#11) := by decide
/-- V-GC-23 to V-GC-26. -/
theorem test_gcGate0_V_GC_23_26 :
    (after 0x0000000000000C064C00#79 (s7 3#5 1000#13)).map (fun t => (t.gate.ch0, t.out)) = some (true, 0x620#11) ∧
    (after 0x0000000000000C064C00#79 (s7 0#5 0#13)).map (fun t => (t.cyc, t.gate.ch0)) = some (1#13, false) ∧
    (after 0x0000000007FF8C064C00#79 (s7 0#5 997#13)).map (fun t => (t.gate.ch0, t.out)) = some (true, 0x420#11) ∧
    (after 0x0000000007FF8C064C00#79 (s7 0#5 998#13)).map (fun t => (t.gate.ch0, t.out)) = some (false, 0x400#11) := by
  decide

/-- V-DM-1, V-DM-6: a change of the step count, and a knob moved within its band. -/
theorem test_dmDet_V_DM_1_6 :
    (after 0x0000000000001C07FF81#79 { ext 4#6 with count := 5#5 }).map
      (fun t => (t.numStepsPrev, t.dispCd, t.led, t.out)) = some (8#6, 1999#11, 0b00010#5, 0x002#11) ∧
    (after 0x0000000000001FFFFF81#79 { ext 8#6 with count := 5#5, dispCd := 500#11 }).map
      (fun t => (t.numStepsPrev, t.dispCd, t.led)) = some (8#6, 499#11, 0b00010#5) := by decide
/-- V-DM-5: a change during a hold. -/
theorem test_dmDet_V_DM_5 :
    (after 0x0000000000002007FF81#79 { ext 8#6 with count := 5#5, dispCd := 500#11 }).map
      (fun t => (t.numStepsPrev, t.dispCd, t.led, t.out)) = some (9#6, 1999#11, 0b10010#5, 0x012#11) := by decide
/-- V-DM-2a, V-DM-2b: the last iteration of the hold and the first after it. -/
theorem test_dmSel_V_DM_2 :
    (after 0x0000000000001C07FF81#79 { ext 8#6 with count := 5#5, dispCd := 1#11 }).map
      (fun t => (t.dispCd, t.led)) = some (0#11, 0b00010#5) ∧
    (after 0x0000000000001C07FF81#79 { ext 8#6 with count := 5#5 }).map (fun t => (t.led, t.out)) =
      some (0b10001#5, 0x011#11) := by decide
/-- V-DM-7, V-DM-8: a tick outside and inside a hold. -/
theorem test_dmSel_V_DM_7_8 :
    (after 0x0000000000001C07FF83#79 { ext 8#6 with count := 7#5 }).map (fun t => (t.count, t.led)) =
      some (0#5, 0b00000#5) ∧
    (after 0x0000000000001C07FF83#79 { ext 8#6 with count := 6#5, dispCd := 1000#11 }).map
      (fun t => (t.count, t.dispCd, t.led)) = some (7#5, 999#11, 0b00010#5) := by decide
/-- V-DM-3, V-DM-4. -/
theorem test_dmEnc_V_DM_3_4 :
    (after 0x0000000000007FFFFF81#79 { ext 32#6 with count := 21#5 }).map (fun t => (t.led, t.out)) =
      some (0b11001#5, 0x019#11) ∧
    (after 0x0000000000007C07FF81#79 { ext 31#6 with count := 21#5 }).map (fun t => (t.dispCd, t.led, t.out)) =
      some (1999#11, 0b00000#5, 0x000#11) := by decide
/-- The LED table of 95_test_vectors.md section 3.5, values 0 to 31. -/
theorem test_dmEnc_table :
    (List.range 32).map (fun v => encodeLed Config.default.ledPerm (BitVec.ofNat 5 v) 0b01101#5) =
      [0x00, 0x10, 0x04, 0x14, 0x01, 0x11, 0x05, 0x15] ++ [0x02, 0x12, 0x06, 0x16, 0x03, 0x13, 0x07, 0x17] ++
      [0x08, 0x18, 0x0C, 0x1C, 0x09, 0x19, 0x0D, 0x1D] ++ [0x0A, 0x1A, 0x0E, 0x1E, 0x0B, 0x1B, 0x0F, 0x1F] := by
  decide

/-- V-RS-1, V-RS-6. -/
theorem test_reset_V_RS_1_6 :
    (after 0x00000000000000000000#79 State.reset).map
      (fun t => ((t.modeExt, t.clkDir, t.delay, t.cyc), (t.numStepsPrev, t.dispCd, t.out))) =
      some ((false, true, 4224#13, 1#13), (1#6, 1999#11, 0x610#11)) ∧
    (after 0x0000000000007FFFFF94#79 State.reset).map (fun t => (t.delay, t.seq.ch1, t.pressedPrev.ch1, t.out)) =
      some (129#13, 0#32, true, 0x600#11) := by decide
/-- V-RS-2 to V-RS-5. -/
theorem test_reset_V_RS_2_5 :
    (after 0x0000000000000C000009#79 State.reset).map (fun t => (t.seq.ch0, t.gate.ch0, t.led, t.out)) =
      some (1#32, false, 0b00001#5, 0x001#11) ∧
    (after 0x7FFFFFFFFFFF8C000019#79 State.reset).map (fun t => (t.seq, t.out)) =
      some (⟨1#32, 1#32, 0#32, 0#32⟩, 0x061#11) ∧
    (after 0x7FFFFFFFFFFF8C00001B#79 State.reset).map (fun t => (t.seq, t.count, t.cyc, t.pulsePrev, t.out)) =
      some (⟨1#32, 1#32, 0#32, 0#32⟩, 1#5, 0#13, true, 0x001#11) ∧
    (after 0x7FFFFFFFFFFF8000001B#79 State.reset).map (fun t => (t.count, t.gate, t.out)) =
      some (0#5, ⟨true, true, false, false⟩, 0x070#11) := by decide

/-! ## Operations alone, and the stimulus notation -/

/-- The state an operation leaves. -/
def ran (r : Result State) : Option State :=
  match r with
  | .next t => some t
  | .fault _ => none
  | .refused _ => none

/-- V-SE-11 and V-CA-11 an operation at a time: SE.REC from the latched sample; SE.ADV and CA.CYC with
the tick set, each leaving every other field alone. -/
theorem test_operations_alone :
    (ran (exec .seRec0 (sample (In.ofWord 0x0000000007FF9C07FF8B#79) (eng 3#5)))).map
      (fun t => (t.seq, t.wires.edge, t.count)) =
      some (⟨8#32, 0#32, 0#32, 0#32⟩, ⟨true, false, false, false⟩, 3#5) ∧
    ran (exec .seAdv { eng 3#5 with wires := { Wires.idle with ns := 8#6, tick := true } }) =
      some { eng 4#5 with wires := { Wires.idle with ns := 8#6, tick := true } } ∧
    ran (exec .caCyc { int 1#6 129#13 100#13 with wires := { Wires.idle with tick := true } }) =
      some { int 1#6 129#13 0#13 with wires := { Wires.idle with tick := true } } := by decide

/-- S2's first statements (95_test_vectors.md section 2): their events are the words printed there. -/
theorem test_stimulus_S2 :
    expandProgram [.reset, .iter { e := some true, steps := some 896#12, tempo := some 4095#12 }, .hold 1,
      .iter { btn := some ⟨true, true, false, false⟩ }, .iter { p := some true }] =
      [.rst, .sample 0x0000000000001C07FF81#79, .sample 0x0000000000001C07FF81#79,
        .sample 0x0000000000001C07FF99#79, .sample 0x0000000000001C07FF9B#79] := by decide

/-- P2's PRESS 1, PULSE and RELEASE 1 (95_test_vectors.md section 4), shortened. -/
theorem test_stimulus_P2 :
    expandProgram [.iter (SampleFields.mk (some true) none none none (some 3224#12) (some 256#12)
        (some ⟨0#12, 20#12, 0#12, 0#12⟩)), .press .c1, .pulse 2 1, .release .c1, .rep 2 (.pulse 1 1)] =
      [.sample 0x00000000A00008064C01#79, .sample 0x00000000A00008064C13#79, .sample 0x00000000A00008064C13#79,
        .sample 0x00000000A00008064C11#79, .sample 0x00000000A00008064C03#79, .sample 0x00000000A00008064C01#79,
        .sample 0x00000000A00008064C03#79, .sample 0x00000000A00008064C01#79] := by decide

/-- The text of two lines of P2 and one of V-SE (95_test_vectors.md), and lines that are no statement. -/
theorem test_stimulus_text :
    readProgram "ITER e=1 tempo=3224 steps=256 duty=0,20,0,0      ; iteration 0\n\nREP 4 PULSE 2 8\nITER k=1 btn=0010".toList =
      some [.iter (SampleFields.mk (some true) none none none (some 3224#12) (some 256#12)
          (some ⟨0#12, 20#12, 0#12, 0#12⟩)), .rep 4 (.pulse 2 8),
        .iter (SampleFields.mk none none (some true) (some ⟨false, true, false, false⟩) none none none)] ∧
    readProgram "ITER tempo=4096".toList = none ∧ readProgram "HOLD".toList = none ∧
    readProgram "RESET\nPRESS 0\nRELEASE 3\nHOLD 0\nITER".toList =
      some [.reset, .press .c0, .release .c3, .hold 0, .iter {}] := by decide

/-! ## Witnesses

One theorem for each statement with hypotheses, named after it: concrete states and operands that meet
the hypotheses of each of its clauses, at the bounds of their ranges. -/

theorem witness_PatternsSelectOperations :
    Instr.dmSel ∈ operations sample12 ∧ Instr.dmSel ∉ [.caTickExt, .caEdge, .caTickInt, .caClkout] ∧
    ∀ ch, Instr.dmSel ≠ .seClear ch ∧ Instr.dmSel ≠ .seRec ch := by
  refine ⟨by decide, by decide, fun ch => ?_⟩
  cases ch <;> decide

theorem witness_StepRunsTheDecodedWord :
    ({ State.reset with pending := [.sample 0x7FF8004002668C064C2B#79, .rst] } : State).pending =
      .sample 0x7FF8004002668C064C2B#79 :: [.rst] ∧ State.reset.pending = [] := by decide

theorem witness_ResetEventLosesTheWholeState :
    ({ s7 3#5 9#13 with pending := [.rst, .sample 0#79] } : State).pending = .rst :: [.sample 0#79] := by decide

theorem witness_StepRunsThePlacedTableWord :
    decodeTableWord 7 0x7F = some (.iter { In.zero with
      extSel := true, pulse := true, clear := true, btn := PerCh.const true }) ∧
    decodeTableWord 0 0 = some (.iter In.zero) ∧ (decodeTableWord 80 (2 ^ 80 - 1)).isSome = true := by decide

theorem witness_StepKeepsTheInvariants :
    ({ State.reset with pending := [.sample 0x7FFFFFFFFFFFFFFFFFFF#79] } : State).Inv ∧
    (∃ t, step { State.reset with pending := [.sample 0x7FFFFFFFFFFFFFFFFFFF#79] } = .next t) ∧
    State.reset.Inv ∧ (∃ t, step State.reset = .next t) ∧ (ext 32#6).RegsOk :=
  ⟨by decide, ⟨_, rfl⟩, by decide, ⟨_, rfl⟩, by decide⟩

theorem witness_ResetMeetsTheInvariants : State.reset.CfgOk ∧ (throttled 0#9).CfgOk := by decide

theorem witness_IterationEndsAsListed :
    (ext 1#6).clkDir = !(ext 1#6).modeExt ∧ (ext 1#6).cfg.pDelay = .p1 ∧
    tickOf { In.zero with extSel := true, pulse := true } (ext 1#6) = true ∧
    tickOf { In.zero with tempo := 4095#12 } (int 1#6 129#13 129#13) = true ∧
    tickOf { In.zero with tempo := 4095#12 } (int 1#6 129#13 128#13) = false := by decide

theorem witness_OutputRegistersAreNotReadBack :
    (s7 0#5 149#13).CfgOk ∧ (s7 0#5 149#13).RegsOk ∧ In.zero.extSel = false ∧
    ((8 : Fin 11) ≠ 9 ∧ (10 : Fin 11) ≠ 9) := by decide

/-- Samples and states that differ in every other channel. -/
theorem witness_ChannelsAreIndependent :
    let a := { In.zero with btn := ⟨true, false, false, false⟩ }
    let b := { In.zero with btn := ⟨true, true, true, true⟩, duty := ⟨0#12, 1#12, 2#12, 3#12⟩ }
    let s := { State.reset with seq := ⟨5#32, 0#32, 0#32, 0#32⟩ }
    let s' := { State.reset with seq := ⟨5#32, 1#32, 2#32, 3#32⟩, pressedPrev := ⟨false, true, true, true⟩ }
    (a.extSel = b.extSel ∧ a.pulse = b.pulse ∧ a.clear = b.clear ∧ a.tempo = b.tempo ∧ a.steps = b.steps) ∧
    (a.btn.get .c0 = b.btn.get .c0 ∧ a.duty.get .c0 = b.duty.get .c0) ∧
    (s.pulsePrev = s'.pulsePrev ∧ s.delay = s'.delay ∧ s.cyc = s'.cyc ∧ s.thrCtr = s'.thrCtr) ∧
    (s.count = s'.count ∧ s.cfg = s'.cfg ∧ s.pressedPrev.get .c0 = s'.pressedPrev.get .c0 ∧
      s.seq.get .c0 = s'.seq.get .c0) ∧ a ≠ b ∧ s ≠ s' := by decide

theorem witness_OnlyPressedChannelsCurrentStepIsWritten :
    (31#5 ≠ (eng 3#5).count) ∧ In.zero.btn.get .c3 = false := by decide

theorem witness_ClearOverridesRecording :
    ({ In.zero with clear := true, btn := PerCh.const true } : In).clear = true := by decide

theorem witness_GateInATickIterationIsTheNewCell :
    tickOf { In.zero with tempo := 3224#12, steps := 384#12 } (s7 3#5 1000#13) = true ∧
    tickOf { In.zero with extSel := true, pulse := true } State.reset = true := by decide

theorem witness_FirstIterationAfterReset :
    Config.default.wf = true ∧ Config.wf ⟨.p512, ⟨4, 3, 2, 1, 0⟩, some pinsOk⟩ = true ∧
    In.zero.extSel = false ∧ sample12.extSel = true ∧
    (sample12.pulse = true ∧ 128 ≤ sample12.steps.toNat) := by decide

theorem witness_ThrottleCounterIdleWhenEveryIterationRecomputes : State.reset.cfg.pDelay = .p1 := by decide

theorem witness_PulseIgnoredInInternalMode : In.zero.extSel = false := by decide

theorem witness_StepKnobActsInBandsOf128 :
    (3968#12).toNat / 128 = (4095#12).toNat / 128 ∧ (0#12).toNat / 128 = (127#12).toNat / 128 := by decide

theorem reset_refines : Refines State.reset Ref.reset := by
  constructor
  case cell =>
    intro ch i
    cases ch <;> simp [State.memRead, State.reset, Ref.reset, PerCh.const, PerCh.get]
  case shown => intro k; simp [State.reset, Ref.reset]
  case pressed | gate => intro ch; cases ch <;> rfl
  all_goals rfl

theorem witness_IterationRefinesTheUnboundedMachine :
    State.reset.Inv ∧ Refines State.reset Ref.reset := ⟨by decide, reset_refines⟩

theorem witness_RunsFromResetRefineTheUnboundedMachine :
    Config.default.wf = true ∧ (throttled 0#9).cfg.wf = true := by decide

/-- The window of 129 iterations (`delay = 129`) at its first and last iteration. -/
theorem witness_InternalTickPeriodIsDelayPlusOne :
    (int 1#6 129#13 0#13).cfg.pDelay = .p1 ∧ ({ In.zero with tempo := 4095#12 } : In).extSel = false ∧
    (int 1#6 129#13 0#13).cyc = 0#13 ∧ (0 < 1 ∧ 1 ≤ 4224 - (4095#12).toNat) ∧
    (0 < 129 ∧ 129 ≤ 4224 - (4095#12).toNat) := by decide

theorem witness_PulsesWalkTheStepsAndWrap :
    let hi := { In.zero with extSel := true, pulse := true, steps := 4095#12 }
    let lo := { In.zero with extSel := true }
    hi.extSel = true ∧ hi.pulse = true ∧ lo.extSel = true ∧ lo.pulse = false ∧
    State.reset.pulsePrev = false ∧ State.reset.count.toNat < hi.steps.toNat / 128 + 1 ∧
    (eng 31#5).count.toNat < hi.steps.toNat / 128 + 1 := by decide

theorem witness_ClockPadIsDrivenExactlyInInternalMode :
    State.reset.clkDir = !State.reset.modeExt ∧
    (int 1#6 129#13 0#13).clkDir = !(int 1#6 129#13 0#13).modeExt := by decide

theorem witness_OnlyClearAndRecordWriteTheStore :
    (∀ inp, Instr.gcGate0 ≠ .iter inp) ∧ (∀ ch, Instr.gcGate0 ≠ .seClear ch ∧ Instr.gcGate0 ≠ .seRec ch) ∧
    (Ch.c0 ≠ Ch.c3 ∨ 0#5 ≠ 0#5) ∧
    (iterate { In.zero with btn := PerCh.const true } State.reset).memRead .c3 0#5 ≠
      State.reset.memRead .c3 0#5 := by
  refine ⟨fun _ h => (by cases h), fun ch => ?_, by decide, by decide⟩
  cases ch <;> decide

theorem witness_EveryRegisterHasItsWriters :
    (∀ inp, Instr.nsteps ≠ .iter inp) ∧ (∀ ch, Instr.nsteps ≠ .sePrev ch ∧ Instr.nsteps ≠ .gcGate ch) ∧
    (∀ ch, Instr.nsteps ≠ .seClear ch ∧ Instr.nsteps ≠ .seRec ch) := by
  refine ⟨fun _ h => (by cases h), fun ch => ?_, fun ch => ?_⟩ <;> cases ch <;> decide

theorem witness_DisplayHoldsExactly2000Iterations :
    State.reset.CfgOk ∧ (∀ n, ∀ inp ∈ List.replicate n ({ In.zero with steps := 4095#12 } : In),
      inp.steps.toNat / 128 + 1 = 32) ∧ 32 ≠ State.reset.numStepsPrev.toNat ∧
    (List.replicate 2000 ({ In.zero with steps := 4095#12 } : In)).length ≤ 2000 ∧
    2000 < (List.replicate 2001 ({ In.zero with steps := 4095#12 } : In)).length ∧
    List.replicate 2001 ({ In.zero with steps := 4095#12 } : In) ≠ [] := by
  refine ⟨by decide, fun n inp h => ?_, by decide, by rw [List.length_replicate], ?_, fun h => ?_⟩
  · rw [List.eq_of_mem_replicate h]; rfl
  · rw [List.length_replicate]; decide
  · exact absurd ((List.length_replicate ..).symm.trans (congrArg List.length h)) (by decide)

theorem witness_HeldButtonSmearsOnlyOnFillChannels :
    let held := { In.zero with btn := PerCh.const true }
    [held] ≠ [] ∧ (∀ inp ∈ [] ++ [held], inp.btn.get .c0 = true ∧ inp.clear = false) ∧
    (∀ inp ∈ [held, held] ++ [held], inp.btn.get .c1 = true ∧ inp.clear = false) ∧
    allowFill .c0 = true ∧ allowFill .c1 = false ∧ State.reset.pressedPrev.get .c1 = false := by decide

theorem witness_ThrottledDelayFollowsEvery512thSample :
    (throttled 0#9).cfg.pDelay = .p512 ∧ [In.zero] ≠ [] := by decide

/-- `s` with a sample latched that selects external mode. -/
def latched1 (s : State) : State := sample { In.zero with extSel := true } s

theorem witness_ModeFollowsTheSelectInput :
    (latched1 State.reset).wires.inp.extSel = State.reset.modeExt ∧
    (latched1 (int 1#6 129#13 0#13)).wires.inp.extSel ≠ (int 1#6 129#13 0#13).modeExt := by decide

theorem witness_ExternalTickOnlyOnARisingEdge :
    State.reset.modeExt = true ∧ (int 1#6 129#13 0#13).modeExt = false := by decide

theorem witness_InternalTickWhenTheCounterReachesDelay :
    (int 1#6 129#13 129#13).modeExt = false ∧ (int 1#6 129#13 128#13).modeExt = false ∧
    State.reset.modeExt = true := by decide

theorem witness_ClearErasesTheCurrentStep :
    let w := { Wires.idle with inp := { In.zero with clear := true, btn := ⟨false, false, true, false⟩ } }
    (w.inp.clear = true ∧ w.inp.btn.get .c2 = true) ∧ ¬ (w.inp.clear = true ∧ w.inp.btn.get .c1 = true) ∧
    ((Ch.c1 ≠ Ch.c2 ∨ 31#5 ≠ 31#5) ∧ (Ch.c2 ≠ Ch.c2 ∨ 30#5 ≠ 31#5)) := by decide

theorem witness_RecordSetsTheCurrentStep :
    let i := { In.zero with btn := ⟨true, true, false, false⟩ }
    let p : PerCh Bool := ⟨true, false, false, false⟩
    (i.btn.get .c0 = true ∧ i.clear = false ∧ (Ch.c0 = .c0 ∨ p.get .c0 = false)) ∧
    (i.btn.get .c1 = true ∧ i.clear = false ∧ (Ch.c1 = .c0 ∨ p.get .c1 = false)) ∧
    ¬ (i.btn.get .c2 = true ∧ i.clear = false ∧ (Ch.c2 = .c0 ∨ p.get .c2 = false)) ∧
    Ch.c3 ≠ Ch.c1 ∧ (Ch.c1 ≠ Ch.c1 ∨ 0#5 ≠ 31#5) := by decide

/-- Another channel, as the frame clauses of the per-channel statements name it. -/
theorem witness_ButtonMemoryFollowsTheButton : Ch.c3 ≠ Ch.c0 := by decide

theorem witness_TickAdvancesTheStepAndWraps :
    let s (n : BitVec 6) (c : BitVec 5) (k : Bool) :=
      { State.reset with count := c, wires := { Wires.idle with ns := n, tick := k } }
    ((s 32#6 31#5 true).wires.ns.toNat ≤ 32 ∧ (s 32#6 31#5 true).wires.tick = true) ∧
    ((s 1#6 0#5 true).wires.ns.toNat ≤ 32 ∧ (s 1#6 0#5 false).wires.tick = false) := by decide

theorem witness_ThresholdIsDutyTimesDelayClamped : Ch.c0 ≠ Ch.c3 := by decide

theorem witness_ThresholdNeverFillsTheWindow :
    (ext 1#6).RegsOk ∧ (ext 1#6).delay.toNat = 129 ∧ State.reset.RegsOk ∧ State.reset.delay.toNat = 4224 := by
  decide

theorem witness_GateIsTheCellWithinTheThreshold : Ch.c1 ≠ Ch.c2 := by decide

theorem witness_StepCountChangeStartsTheHold :
    ({ State.reset with wires := { Wires.idle with ns := 1#6 } } : State).wires.ns ≠ State.reset.numStepsPrev ∧
    ({ ext 32#6 with wires := { Wires.idle with ns := 32#6 } } : State).wires.ns = (ext 32#6).numStepsPrev := by
  decide

theorem witness_DisplaySelectsCountOrStepCount :
    0 < ({ State.reset with dispCd := 1#11 } : State).dispCd.toNat ∧
    0 < ({ State.reset with dispCd := 2000#11 } : State).dispCd.toNat ∧ State.reset.dispCd.toNat = 0 := by decide

theorem witness_LedLinesCarryThePermutedValue :
    State.reset.CfgOk ∧ ({ State.reset with cfg := ⟨.p1, ⟨4, 3, 2, 1, 0⟩, none⟩ } : State).CfgOk := by decide

theorem witness_ListedStatesAreNeverReached :
    Config.default.wf = true ∧ Config.wf ⟨.p512, ⟨4, 3, 2, 1, 0⟩, some pinsOk⟩ = true ∧
    State.reset.numStepsPrev.toNat = 0 := by decide

end Sys2Proof.Tests
end

/-! 20_memory.md R42: the sequence store's write, who uses it, where and when. -/

section
namespace Sys2Proof.Machine

variable (inp : In) (s : State) (ch : Ch)

/-! What the two writers of the store do (42_step_engine_fsm.md R110, R111). -/

theorem seClear_eq_self_or_memWrite :
    seClear ch s = s ∨ s.pressedNow ch = true ∧ seClear ch s = s.memWrite ch s.count false := by
  unfold seClear
  split
  · next h => exact .inr ⟨(Bool.and_eq_true_iff.mp h).2, rfl⟩
  · exact .inl rfl

theorem pressedNow_of_records (h : s.records ch = true) : s.pressedNow ch = true := by
  simp only [State.records, Bool.and_eq_true] at h
  exact h.1.1

theorem seRec_seq : (seRec ch s).seq =
    (s.memWrite ch s.count (if s.records ch then true else s.memRead ch s.count)).seq := by
  rw [seRec_eq]; rfl

theorem seRec_seq_eq_self_or_memWrite : (seRec ch s).seq = s.seq ∨
    s.pressedNow ch = true ∧ (seRec ch s).seq = (s.memWrite ch s.count true).seq := by
  rw [seRec_seq]
  split
  · next h => exact .inr ⟨pressedNow_of_records s ch h, rfl⟩
  · exact .inl (congrArg State.seq (memWrite_memRead_self s ch s.count))

/-- The frame of the store: by its equation every other operation only updates other fields. -/
theorem exec_seq_of_not_writer (i : Instr) (hiter : ∀ inp, i ≠ .iter inp)
    (hwriter : ∀ ch, i ≠ .seClear ch ∧ i ≠ .seRec ch) : ∃ t, exec i s = .next t ∧ t.seq = s.seq := by
  cases i with
  | iter inp => exact absurd rfl (hiter inp)
  | seClear0 => exact absurd rfl (hwriter .c0).1
  | seClear1 => exact absurd rfl (hwriter .c1).1
  | seClear2 => exact absurd rfl (hwriter .c2).1
  | seClear3 => exact absurd rfl (hwriter .c3).1
  | seRec0 => exact absurd rfl (hwriter .c0).2
  | seRec1 => exact absurd rfl (hwriter .c1).2
  | seRec2 => exact absurd rfl (hwriter .c2).2
  | seRec3 => exact absurd rfl (hwriter .c3).2
  | caMode | caDelay | caTickExt | caTickInt | caEdge | caCyc | caClkout | seAdv | dmDet | dmSel =>
    exact ⟨_, rfl, by simp [caMode_eq, caDelay_eq, caTickExt_eq, caTickInt_eq, caEdge_eq, caCyc_eq, caClkout_eq,
      seAdv_eq, dmDet_eq, dmSel_eq]⟩
  | sample _ | nsteps | caThr | sePrev0 | sePrev1 | sePrev2 | sePrev3 | gcThr0 | gcThr1 | gcThr2 | gcThr3
  | gcGate0 | gcGate1 | gcGate2 | gcGate3 | dmEnc | out => exact ⟨_, rfl, rfl⟩

/-! The iteration. -/

theorem iterCell_of_not_pressed (h : inp.btn.get ch = false) : iterCell inp s ch = s.memRead ch s.count := by
  simp [iterCell, h]

/-- An iteration leaves every cell but the current step's of each pressed channel. -/
theorem iterate_memRead_of_not_current_or_not_pressed (i : BitVec 5)
    (h : i ≠ s.count ∨ inp.btn.get ch = false) : (iterate inp s).memRead ch i = s.memRead ch i := by
  rw [iterate_memRead]
  split
  · next hi =>
    subst hi
    exact iterCell_of_not_pressed inp s ch (h.resolve_left (· rfl))
  · rfl

theorem iterate_memRead_ne (i : BitVec 5) (h : (iterate inp s).memRead ch i ≠ s.memRead ch i) :
    i = s.count ∧ inp.btn.get ch = true := by
  by_contra hn
  refine h (iterate_memRead_of_not_current_or_not_pressed inp s ch i ?_)
  rwa [not_and_or, Bool.not_eq_true] at hn

end Sys2Proof.Machine
end

section
open Sys2Proof Sys2Proof.Machine

/-- Settles O23: the write primitive, its two users, the frame of every other operation, and the
iteration's cells, each by its own lemma. -/
theorem onlyClearAndRecordWriteTheStore : Obligations.OnlyClearAndRecordWriteTheStore := by
  refine ⟨fun s ch i v => ⟨memRead_memWrite_self s ch i v, fun ch' i' h => ?other⟩,
    fun ch s => ⟨_, exec_seClear ch s, seClear_eq_self_or_memWrite s ch⟩,
    fun ch s => ⟨_, exec_seRec ch s, seRec_seq_eq_self_or_memWrite s ch⟩,
    fun i s hiter hwriter => exec_seq_of_not_writer s i hiter hwriter,
    fun inp s => ⟨_, exec_iter s inp, iterate_memRead_ne inp s⟩⟩
  case other => rw [memRead_memWrite, if_neg (not_and_or.mpr h)]

end

/-! 40_iteration.md R82: the step count NSTEPS derives, its range and its frame. -/

section
namespace Sys2Proof.Machine

theorem one_le_nsOf_toNat (steps : Reading) : 1 ≤ (nsOf steps).toNat := by
  rw [nsOf_toNat]
  exact Nat.le_add_left 1 _

/-- A 12-bit reading is below `32 * 128`. -/
theorem nsOf_toNat_le (steps : Reading) : (nsOf steps).toNat ≤ 32 := by
  rw [nsOf_toNat]
  exact Nat.div_lt_of_lt_mul steps.isLt

theorem exec_nsteps (s : State) : exec .nsteps s = .next (nsteps s) := rfl

theorem nsteps_wires_ns (s : State) : (nsteps s).wires.ns = nsOf s.wires.inp.steps := by
  rw [nsteps_eq, setWires_wires]

/-- NSTEPS writes the wire `ns` and nothing else. -/
theorem nsteps_frame (s : State) :
    { nsteps s with wires := { (nsteps s).wires with ns := s.wires.ns } } = s := rfl

end Sys2Proof.Machine
end

section
open Sys2Proof Sys2Proof.Machine

/-- Settles O36: the wire is `nsOf` of the knob, whose value and range are arithmetic on the reading. -/
theorem nstepsIsTheKnobShiftedAndIncremented : Obligations.NstepsIsTheKnobShiftedAndIncremented := by
  intro s
  refine ⟨nsteps s, exec_nsteps s, ?_⟩
  rw [nsteps_wires_ns]
  exact ⟨nsOf_toNat _, one_le_nsOf_toNat _, nsOf_toNat_le _, nsteps_frame s⟩

end

/-! 41_clock_arbiter.md R90: the mode, the pad direction and the wire `mode_diff` after CA.MODE. -/

section
namespace Sys2Proof.Machine

variable (s : State)

theorem modeDiffOf_eq_true_of_ne {extSel modeExt : Bool} (h : extSel ≠ modeExt) :
    modeDiffOf extSel modeExt = true := bne_iff_ne.mpr h

theorem modeDiffOf_self (b : Bool) : modeDiffOf b b = false := bne_self_eq_false b

theorem exec_caMode : exec .caMode s = .next (caMode s) := rfl

theorem caMode_modeExt : (caMode s).modeExt = s.wires.inp.extSel := by
  rw [caMode_eq, setMode_modeExt]

theorem caMode_clkDir : (caMode s).clkDir =
    if modeDiffOf s.wires.inp.extSel s.modeExt then !s.wires.inp.extSel else s.clkDir := by
  rw [caMode_eq, setMode_clkDir]

theorem caMode_wires_modeDiff :
    (caMode s).wires.modeDiff = modeDiffOf s.wires.inp.extSel s.modeExt := by
  rw [caMode_eq, setMode_wires, setWires_wires]

/-- CA.MODE writes `mode_ext`, `clk_dir` and the wire `mode_diff` and nothing else. -/
theorem caMode_frame :
    { caMode s with modeExt := s.modeExt, clkDir := s.clkDir,
                    wires := { (caMode s).wires with modeDiff := s.wires.modeDiff } } = s := by
  rw [caMode_eq]; rfl

end Sys2Proof.Machine
end

section
open Sys2Proof Sys2Proof.Machine

/-- Settles O37: the direction and `mode_diff` turn on `modeDiffOf` alone, which is set exactly when
the select input and the mode differ. -/
theorem modeFollowsTheSelectInput : Obligations.ModeFollowsTheSelectInput := by
  intro s
  refine ⟨caMode s, exec_caMode s, caMode_modeExt s, fun hne => ?changed, fun heq => ?kept, caMode_frame s⟩
  case changed =>
    have hdiff := modeDiffOf_eq_true_of_ne hne
    exact ⟨by rw [caMode_clkDir, if_pos hdiff], by rw [caMode_wires_modeDiff, hdiff]⟩
  case kept =>
    have hdiff : modeDiffOf s.wires.inp.extSel s.modeExt = false := by rw [heq, modeDiffOf_self]
    exact ⟨by rw [caMode_clkDir, hdiff, if_neg Bool.false_ne_true], by rw [caMode_wires_modeDiff, hdiff]⟩

end

/-! 41_clock_arbiter.md R94, R95: the tick in each clock mode, and the samples whose CTL7 pattern
selects the operation that writes it (30_encoding.md R66). -/

section
namespace Sys2Proof.Machine

/-- Bit 0 of CTL7 is the select input (30_encoding.md R63). -/
theorem getLsbD_zero_ctl7 (inp : In) : inp.ctl7.getLsbD 0 = inp.extSel := by
  rw [In.getLsbD_ctl7]
  simp

/-- A row that fixes only bit 0, to 1, is considered in external mode. -/
theorem considered_of_row_bit_zero_set {i : Instr} (hm : i.row.mask = 1#7) (hp : i.row.pattern = 1#7)
    (inp : In) : i.considered inp.ctl7 = inp.extSel := by
  rw [Instr.considered, hm, hp, BitVec.and_one_eq_setWidth_ofBool_getLsbD, getLsbD_zero_ctl7]
  cases inp.extSel <;> rfl

/-- A row that fixes only bit 0, to 0, is considered in internal mode. -/
theorem considered_of_row_bit_zero_clear {i : Instr} (hm : i.row.mask = 1#7) (hp : i.row.pattern = 0#7)
    (inp : In) : i.considered inp.ctl7 = !inp.extSel := by
  rw [Instr.considered, hm, hp, BitVec.and_one_eq_setWidth_ofBool_getLsbD, getLsbD_zero_ctl7]
  cases inp.extSel <;> rfl

theorem tickExtOf_eq_true_iff (pulse pulsePrev : Bool) :
    tickExtOf pulse pulsePrev = true ↔ pulse = true ∧ pulsePrev = false := by
  rw [tickExtOf, Bool.and_eq_true, Bool.not_eq_true']

theorem tickIntOf_eq_true_iff (cyc delay : BitVec 13) :
    tickIntOf cyc delay = true ↔ delay.toNat ≤ cyc.toNat := by
  rw [tickIntOf, decide_eq_true_iff, BitVec.le_def]

variable (s : State)

theorem exec_caTickExt : exec .caTickExt s = .next (caTickExt s) := rfl

theorem exec_caTickInt : exec .caTickInt s = .next (caTickInt s) := rfl

theorem caTickExt_wires_tick : (caTickExt s).wires.tick =
    if s.modeExt then tickExtOf s.wires.inp.pulse s.pulsePrev else s.wires.tick := by
  rw [caTickExt_eq, setWires_wires]

theorem caTickInt_wires_tick : (caTickInt s).wires.tick =
    if s.modeExt then s.wires.tick else tickIntOf s.cyc s.delay := by
  rw [caTickInt_eq, setWires_wires]

/-- CA.TICK.EXT writes the wire `tick` and nothing else. -/
theorem caTickExt_frame :
    { caTickExt s with wires := { (caTickExt s).wires with tick := s.wires.tick } } = s := by
  rw [caTickExt_eq]; rfl

/-- CA.TICK.INT writes the wire `tick` and nothing else. -/
theorem caTickInt_frame :
    { caTickInt s with wires := { (caTickInt s).wires with tick := s.wires.tick } } = s := by
  rw [caTickInt_eq]; rfl

end Sys2Proof.Machine
end

section
open Sys2Proof Sys2Proof.Machine

/-- Settles O40: in external mode the wire is `tickExtOf`, the rising edge; in internal mode the
operation writes `tick` back. -/
theorem externalTickOnlyOnARisingEdge : Obligations.ExternalTickOnlyOnARisingEdge := by
  intro s
  refine ⟨caTickExt s, exec_caTickExt s, fun hext => ?external, fun hint => ?internal, caTickExt_frame s,
    considered_of_row_bit_zero_set rfl rfl _⟩
  case external => rw [caTickExt_wires_tick, if_pos hext, tickExtOf_eq_true_iff]
  case internal => rw [caTickExt_wires_tick, hint, if_neg Bool.false_ne_true]

/-- Settles O41: in internal mode the wire is `tickIntOf`, the comparison of the counter with `delay`;
in external mode the operation writes `tick` back. -/
theorem internalTickWhenTheCounterReachesDelay : Obligations.InternalTickWhenTheCounterReachesDelay := by
  intro s
  refine ⟨caTickInt s, exec_caTickInt s, fun hint => ?internal, fun hext => ?external, caTickInt_frame s,
    considered_of_row_bit_zero_clear rfl rfl _⟩
  case internal => rw [caTickInt_wires_tick, hint, if_neg Bool.false_ne_true, tickIntOf_eq_true_iff]
  case external => rw [caTickInt_wires_tick, if_pos hext]

end

/-! 42_step_engine_fsm.md R110, R111, R113: the step engine's operations one at a time, and the samples
whose CTL7 pattern selects SE.CLEAR and SE.REC of a channel (30_encoding.md R66). -/

section
namespace Sys2Proof.Machine

/-! The patterns: a row of SE.CLEAR or SE.REC fixes the bit of `clear` and the bit of one button. -/

/-- Bit 2 of CTL7 is `clear` (30_encoding.md R63). -/
theorem getLsbD_two_ctl7 (inp : In) : inp.ctl7.getLsbD 2 = inp.clear := by
  rw [In.getLsbD_ctl7]
  simp

/-- The buttons are the bits of CTL7 from bit 3, in channel order (30_encoding.md R63). -/
theorem getLsbD_num_add_three_ctl7 (inp : In) (ch : Ch) :
    inp.ctl7.getLsbD (ch.num + 3) = inp.btn.get ch := by
  rw [In.getLsbD_ctl7]
  cases ch <;> simp [Ch.num, PerCh.get]

/-- A row that fixes only the bits `j` and `k`, to `a` and `b`, is considered when they have these values. -/
theorem considered_of_row_two_bits {i : Instr} {j k : Nat} {a b : Bool} (hj : j < 7) (hk : k < 7)
    (hjk : j ≠ k) (hm : i.row.mask = writeBit (writeBit 0#7 j true) k true)
    (hp : i.row.pattern = writeBit (writeBit 0#7 j a) k b) (c : Ctl7) :
    i.considered c = (c.getLsbD j == a && c.getLsbD k == b) := by
  rw [Instr.considered, hm, hp, Bool.eq_iff_iff, Bool.and_eq_true, beq_iff_eq, beq_iff_eq, beq_iff_eq]
  constructor
  · intro h
    have hbit (n : Nat) := congrArg (BitVec.getLsbD · n) h
    simp only [BitVec.getLsbD_and, getLsbD_writeBit] at hbit
    exact ⟨by simpa [hj, hjk] using hbit j, by simpa [hk] using hbit k⟩
  · rintro ⟨rfl, rfl⟩
    apply BitVec.eq_of_getLsbD_eq
    intro n _
    simp only [BitVec.getLsbD_and, getLsbD_writeBit, hj, hk, and_true]
    by_cases hnk : n = k
    · simp [hnk]
    · by_cases hnj : n = j <;> simp [hnk, hnj, hjk]

/-- A row that fixes `clear` to `a` and the channel's button to 1. -/
theorem considered_of_row_clear_and_button {i : Instr} (ch : Ch) (a : Bool)
    (hm : i.row.mask = writeBit (writeBit 0#7 2 true) (ch.num + 3) true)
    (hp : i.row.pattern = writeBit (writeBit 0#7 2 a) (ch.num + 3) true) (inp : In) :
    i.considered inp.ctl7 = (inp.clear == a && inp.btn.get ch) := by
  have hbutton : ch.num + 3 < 7 := by cases ch <;> decide
  rw [considered_of_row_two_bits (by decide) hbutton (by omega) hm hp, getLsbD_two_ctl7,
    getLsbD_num_add_three_ctl7, beq_true]

theorem seClear_considered (inp : In) (ch : Ch) :
    (Instr.seClear ch).considered inp.ctl7 = (inp.clear && inp.btn.get ch) := by
  rw [considered_of_row_clear_and_button ch true (by cases ch <;> rfl) (by cases ch <;> rfl), beq_true]

theorem seRec_considered (inp : In) (ch : Ch) :
    (Instr.seRec ch).considered inp.ctl7 = (!inp.clear && inp.btn.get ch) := by
  rw [considered_of_row_clear_and_button ch false (by cases ch <;> rfl) (by cases ch <;> rfl), beq_false]

variable (s : State) (ch : Ch)

/-! SE.CLEAR. -/

@[simp] theorem seClear_wires : (seClear ch s).wires = s.wires := by rw [seClear_eq, memWrite_wires]

theorem seClear_memRead (ch' : Ch) (i : BitVec 5) : (seClear ch s).memRead ch' i =
    if ch' = ch ∧ i = s.count then (if s.clear && s.pressedNow ch then false else s.memRead ch s.count)
    else s.memRead ch' i := by
  rw [seClear_eq, memRead_memWrite]

theorem seClear_erases (hclear : s.clear = true) (hbtn : s.pressedNow ch = true) :
    (seClear ch s).memRead ch s.count = false := by
  rw [seClear_memRead, if_pos ⟨rfl, rfl⟩, hclear, hbtn]
  rfl

theorem seClear_eq_self (h : ¬ (s.clear = true ∧ s.pressedNow ch = true)) : seClear ch s = s := by
  rw [seClear, if_neg (by rwa [Bool.and_eq_true])]

/-- SE.CLEAR writes the sequence store and nothing else. -/
theorem seClear_frame : { seClear ch s with seq := s.seq } = s := by
  rw [seClear_eq]; rfl

/-! SE.REC. -/

theorem edgeOf_eq_true_iff (btn pressedPrev : Bool) :
    edgeOf btn pressedPrev = true ↔ btn = true ∧ pressedPrev = false := by
  rw [edgeOf, Bool.and_eq_true, Bool.not_eq_true']

/-- Channel 0 is the only fill channel (10_state.md R24). -/
theorem allowFill_eq_true_iff : allowFill ch = true ↔ ch = .c0 := by cases ch <;> decide

/-- SE.REC writes its cell with the button pressed and no clear, on the fill channel or at a press edge. -/
theorem records_eq_true_iff : s.records ch = true ↔
    s.pressedNow ch = true ∧ s.clear = false ∧ (ch = .c0 ∨ s.pressedPrev.get ch = false) := by
  rw [State.records, Bool.and_eq_true, Bool.and_eq_true, Bool.or_eq_true, Bool.not_eq_true',
    allowFill_eq_true_iff, edgeOf_eq_true_iff, and_assoc]
  refine and_congr_right fun hbtn => ?_
  rw [hbtn, eq_self_iff_true, true_and]

theorem not_records_of_clear (hclear : s.clear = true) : ¬ s.records ch = true := by
  intro h
  obtain ⟨-, hnot, -⟩ := (records_eq_true_iff s ch).mp h
  exact Bool.false_ne_true (hnot.symm.trans hclear)

theorem seRec_memRead (ch' : Ch) (i : BitVec 5) : (seRec ch s).memRead ch' i =
    if ch' = ch ∧ i = s.count then (if s.records ch then true else s.memRead ch s.count)
    else s.memRead ch' i := by
  rw [seRec_eq, memRead_memWrite, setWires_memRead]

theorem seRec_sets (h : s.records ch = true) : (seRec ch s).memRead ch s.count = true := by
  rw [seRec_memRead, if_pos ⟨rfl, rfl⟩, if_pos h]

theorem seRec_seq_eq_self (h : ¬ s.records ch = true) : (seRec ch s).seq = s.seq := by
  rw [seRec_seq, if_neg h, memWrite_memRead_self]

theorem seRec_wires_edge : (seRec ch s).wires.edge =
    s.wires.edge.set ch (edgeOf (s.pressedNow ch) (s.pressedPrev.get ch)) := by
  rw [seRec_eq, memWrite_wires, setWires_wires]

/-- SE.REC writes the sequence store and the wire `edge` and nothing else. -/
theorem seRec_frame :
    { seRec ch s with seq := s.seq, wires := { (seRec ch s).wires with edge := s.wires.edge } } = s := by
  rw [seRec_eq]; rfl

/-- Clear overrides recording: SE.REC after SE.CLEAR leaves the erased cell (42_step_engine_fsm.md R110). -/
theorem seRec_seClear_memRead (hclear : s.clear = true) (hbtn : s.pressedNow ch = true) :
    (seRec ch (seClear ch s)).memRead ch s.count = false := by
  have hheld : (seClear ch s).clear = true := by rwa [State.clear, seClear_wires]
  have hkept := seRec_seq_eq_self (seClear ch s) ch (not_records_of_clear _ ch hheld)
  rw [State.memRead, hkept]
  exact seClear_erases s ch hclear hbtn

/-! SE.ADV. -/

theorem exec_seAdv : exec .seAdv s = .next (seAdv s) := rfl

theorem seAdv_count : (seAdv s).count =
    if s.wires.tick then nextCount s.count s.wires.ns else s.count := by
  rw [seAdv_eq, setCount_count]

/-- SE.ADV writes `count` and nothing else. -/
theorem seAdv_frame : { seAdv s with count := s.count } = s := by
  rw [seAdv_eq]; rfl

end Sys2Proof.Machine
end

section
open Sys2Proof Sys2Proof.Machine

/-- Settles O45: SE.CLEAR writes the current cell alone, and under a held clear SE.REC neither matches
nor writes. -/
theorem clearErasesTheCurrentStep : Obligations.ClearErasesTheCurrentStep := by
  intro ch s
  refine ⟨seClear ch s, exec_seClear ch s, fun ⟨hclear, hbtn⟩ => seClear_erases s ch hclear hbtn,
    fun hn => seClear_eq_self s ch hn, fun ch' i hne => ?otherCell, seClear_frame s ch,
    seClear_considered _ ch, fun hclear => ?recNotConsidered,
    fun ⟨hclear, hbtn⟩ => ⟨_, exec_seRec ch _, seRec_seClear_memRead s ch hclear hbtn⟩⟩
  case otherCell => rw [seClear_memRead, if_neg (not_and_or.mpr hne)]
  case recNotConsidered => rw [seRec_considered, hclear, Bool.not_true, Bool.false_and]

/-- Settles O46: the condition of the statement is `State.records`, and the wire is `edgeOf`. -/
theorem recordSetsTheCurrentStep : Obligations.RecordSetsTheCurrentStep := by
  intro ch s
  refine ⟨seRec ch s, exec_seRec ch s, ?edge, fun h => seRec_sets s ch ((records_eq_true_iff s ch).mpr h),
    fun hn => seRec_seq_eq_self s ch (mt (records_eq_true_iff s ch).mp hn), fun ch' i hne => ?otherCell,
    fun ch' hne => ?otherEdge, seRec_frame s ch, seRec_considered _ ch⟩
  case edge => rw [seRec_wires_edge, PerCh.get_set_self, edgeOf_eq_true_iff, State.pressedNow]
  case otherCell => rw [seRec_memRead, if_neg (not_and_or.mpr hne)]
  case otherEdge => rw [seRec_wires_edge, PerCh.get_set_ne _ _ hne]

/-- Settles O48: with a tick the step is `nextCount`, whose value for a step count of at most 32 is
arithmetic on the natural numbers. -/
theorem tickAdvancesTheStepAndWraps : Obligations.TickAdvancesTheStepAndWraps := by
  intro s hns
  refine ⟨seAdv s, exec_seAdv s, fun hquiet => ?kept, fun htick => ?advanced, seAdv_frame s⟩
  case kept => rw [seAdv_count, hquiet, if_neg Bool.false_ne_true]
  case advanced => rw [seAdv_count, if_pos htick, nextCount_toNat _ _ hns]

end

/-! 43_gate_duty_calculator.md R125, R126: the threshold of each channel after GC.THR and the gate of
each channel after GC.GATE. -/

section
namespace Sys2Proof.Machine

/-- The clamp of R125 by cases: the quotient, or 1 where the quotient is 0. -/
theorem thrOf_toNat_eq_ite (duty : Reading) (delay : BitVec 13) : (thrOf duty delay).toNat =
    if duty.toNat * delay.toNat / 4096 = 0 then 1 else duty.toNat * delay.toNat / 4096 := by
  rw [thrOf_toNat]
  split
  · next hzero => rw [hzero, Nat.max_eq_left (Nat.zero_le 1)]
  · next hpos => exact Nat.max_eq_right (Nat.one_le_iff_ne_zero.mpr hpos)

theorem gateOf_eq_true_iff (cell : Bool) (cyc thr : BitVec 13) :
    gateOf cell cyc thr = true ↔ cell = true ∧ cyc.toNat < thr.toNat := by
  rw [gateOf, Bool.and_eq_true, decide_eq_true_iff, BitVec.lt_def]

variable (s : State) (ch : Ch)

theorem gcThr_wires_thr : (gcThr ch s).wires.thr =
    s.wires.thr.set ch (thrOf (s.wires.inp.duty.get ch) s.delay) := by
  rw [gcThr_eq, setWires_wires]

/-- GC.THR writes the wire `thr` and nothing else. -/
theorem gcThr_frame : { gcThr ch s with wires := { (gcThr ch s).wires with thr := s.wires.thr } } = s := by
  rw [gcThr_eq]; rfl

theorem gcGate_gate : (gcGate ch s).gate =
    s.gate.set ch (gateOf (s.memRead ch s.count) s.cyc (s.wires.thr.get ch)) := by
  rw [gcGate_eq, setGate_gate]

/-- GC.GATE writes the register `gate` and nothing else. -/
theorem gcGate_frame : { gcGate ch s with gate := s.gate } = s := by
  rw [gcGate_eq]; rfl

end Sys2Proof.Machine
end

section
open Sys2Proof Sys2Proof.Machine

/-- Settles O49: the channel's threshold is `thrOf`, whose value over the natural numbers is the
clamped quotient. -/
theorem thresholdIsDutyTimesDelayClamped : Obligations.ThresholdIsDutyTimesDelayClamped := by
  intro ch s
  refine ⟨gcThr ch s, exec_gcThr ch s, ?threshold, fun ch' hne => ?otherThreshold, gcThr_frame s ch⟩
  case threshold => rw [gcThr_wires_thr, PerCh.get_set_self, thrOf_toNat_eq_ite]
  case otherThreshold => rw [gcThr_wires_thr, PerCh.get_set_ne _ _ hne]

/-- Settles O51: the channel's gate is `gateOf`, the current cell and the comparison of the counter
with the threshold. -/
theorem gateIsTheCellWithinTheThreshold : Obligations.GateIsTheCellWithinTheThreshold := by
  intro ch s
  refine ⟨gcGate ch s, exec_gcGate ch s, ?gate, fun ch' hne => ?otherGate, gcGate_frame s ch⟩
  case gate => rw [gcGate_gate, PerCh.get_set_self, gateOf_eq_true_iff]
  case otherGate => rw [gcGate_gate, PerCh.get_set_ne _ _ hne]

end

/-! 44_display_mux_encoder.md R135, R137: the countdown and the remembered step count after DM.DET, and
the LED lines after DM.ENC. -/

section
namespace Sys2Proof.Machine

theorem stepsChangedOf_eq_true_iff (ns numStepsPrev : BitVec 6) :
    stepsChangedOf ns numStepsPrev = true ↔ ns ≠ numStepsPrev := by
  rw [stepsChangedOf, bne_iff_ne]

/-- An admissible `LED_PERM` reaches every line: an injective map of the five lines to themselves. -/
theorem ledPerm_line_surjective {p : LedPerm} (h : p.wf = true) : Function.Surjective p.line :=
  Finite.surjective_of_injective fun _ _ => ledPerm_line_injective h

/-- `Config.wf` gives the `LED_PERM` part of admissible parameters. -/
theorem ledPerm_wf_of_cfgOk {s : State} (h : s.CfgOk) : s.cfg.ledPerm.wf = true :=
  (Bool.and_eq_true_iff.mp h).1

variable (s : State)

/-! DM.DET. -/

theorem exec_dmDet : exec .dmDet s = .next (dmDet s) := rfl

theorem dmDet_wires_stepsChanged :
    (dmDet s).wires.stepsChanged = stepsChangedOf s.wires.ns s.numStepsPrev := by
  rw [dmDet_eq, setNumStepsPrev_wires, setDispCd_wires, setWires_wires]

theorem dmDet_dispCd : (dmDet s).dispCd =
    if stepsChangedOf s.wires.ns s.numStepsPrev then displayHold else s.dispCd := by
  rw [dmDet_eq, setNumStepsPrev_dispCd, setDispCd_dispCd]

/-- Changed or not, the remembered step count is `ns` after DM.DET. -/
theorem dmDet_numStepsPrev : (dmDet s).numStepsPrev = s.wires.ns := by
  rw [dmDet_eq, setNumStepsPrev_numStepsPrev]

/-- DM.DET writes `disp_cd`, `num_steps_prev` and the wire `steps_changed` and nothing else. -/
theorem dmDet_frame :
    { dmDet s with dispCd := s.dispCd, numStepsPrev := s.numStepsPrev,
                   wires := { (dmDet s).wires with stepsChanged := s.wires.stepsChanged } } = s := by
  rw [dmDet_eq]; rfl

/-! DM.ENC. -/

theorem exec_dmEnc : exec .dmEnc s = .next (dmEnc s) := rfl

theorem dmEnc_shows (h : s.CfgOk) : (dmEnc s).shows s.wires.val.toNat := by
  intro k
  rw [dmEnc_eq, setLed_led, setLed_cfg, encodeLed_line (ledPerm_wf_of_cfgOk h), BitVec.testBit_toNat]

/-- DM.ENC writes the register `led` and nothing else. -/
theorem dmEnc_frame : { dmEnc s with led := s.led } = s := by
  rw [dmEnc_eq]; rfl

end Sys2Proof.Machine
end

section
open Sys2Proof Sys2Proof.Machine

/-- Settles O52: the wire is `stepsChangedOf`, set exactly when the step counts differ, and the
countdown turns on it; an unchanged step count is remembered as it was. -/
theorem stepCountChangeStartsTheHold : Obligations.StepCountChangeStartsTheHold := by
  intro s
  have hchanged := stepsChangedOf_eq_true_iff s.wires.ns s.numStepsPrev
  refine ⟨dmDet s, exec_dmDet s, ?wire, fun hne => ⟨?held, dmDet_numStepsPrev s⟩,
    fun heq => ⟨?kept, (dmDet_numStepsPrev s).trans heq⟩, dmDet_frame s⟩
  case wire => rw [dmDet_wires_stepsChanged, hchanged]
  case held => rw [dmDet_dispCd, if_pos (hchanged.mpr hne)]; rfl
  case kept => rw [dmDet_dispCd, if_neg fun hset => hchanged.mp hset heq]

/-- Settles O54: an admissible permutation sends the bits to distinct lines, so no line is written
twice and none is left out. -/
theorem ledLinesCarryThePermutedValue : Obligations.LedLinesCarryThePermutedValue := by
  intro s hcfg
  exact ⟨dmEnc s, exec_dmEnc s, dmEnc_shows s hcfg,
    ledPerm_line_surjective (ledPerm_wf_of_cfgOk hcfg), dmEnc_frame s⟩

end

/-! 30_encoding.md sections 3 and 6: the input word, its ten-byte container and its decoder; the output
word and its fields. -/

section
namespace Sys2Proof

theorem decode_encode_iter (inp : In) : decode (encode (.iter inp)) = .iter inp :=
  congrArg Instr.iter (In.ofWord_toWord inp)

theorem encode_decode (w : InWord) : encode (decode w) = w := In.toWord_ofWord w

theorem decodeBytes_encodeBytes_iter (inp : In) (rest : List Byte) :
    decodeBytes (encodeBytes (.iter inp) ++ rest) = .ok (.iter inp, rest) := by
  rw [encodeBytes, decodeBytes_bytesOf, BitVec.ofNat_toNat, BitVec.setWidth_eq, decode_encode_iter]

/-! The output word, bit by bit. -/

theorem Out.getLsbD_toWord (o : Out) (j : Nat) : o.toWord.getLsbD j =
    (o.led.getLsbD j || decide (j = 5) && o.gate.ch0 || decide (j = 6) && o.gate.ch1 ||
      decide (j = 7) && o.gate.ch2 || decide (j = 8) && o.gate.ch3 || decide (j = 9) && o.clkOut ||
      decide (j = 10) && o.clkDir) := by
  have hled : 11 ≤ j → o.led.getLsbD j = false := fun h => BitVec.getLsbD_of_ge _ _ (by omega)
  simp only [Out.toWord, BitVec.getLsbD_or, getLsbD_fieldAt, BitVec.getLsbD_ofBool]
  grind

theorem Out.getLsbD_toWord_led (o : Out) {j : Nat} (h : j < 5) : o.toWord.getLsbD j = o.led.getLsbD j := by
  rw [getLsbD_toWord]
  simp [show j ≠ 5 ∧ j ≠ 6 ∧ j ≠ 7 ∧ j ≠ 8 ∧ j ≠ 9 ∧ j ≠ 10 by omega]

theorem Out.getLsbD_toWord_gate (o : Out) (ch : Ch) : o.toWord.getLsbD (5 + ch.num) = o.gate.get ch := by
  rw [getLsbD_toWord]
  cases ch <;> simp [Ch.num, PerCh.get]

theorem Out.getLsbD_toWord_clkOut (o : Out) : o.toWord.getLsbD 9 = o.clkOut := by
  rw [getLsbD_toWord]
  simp

theorem Out.getLsbD_toWord_clkDir (o : Out) : o.toWord.getLsbD 10 = o.clkDir := by
  rw [getLsbD_toWord]
  simp

theorem Out.ofWord_toWord (o : Out) : Out.ofWord o.toWord = o := by
  have hled : o.toWord.extractLsb' 0 5 = o.led := by
    apply BitVec.eq_of_getLsbD_eq
    intro j hj
    rw [BitVec.getLsbD_extractLsb', Nat.zero_add, getLsbD_toWord_led o hj, decide_eq_true hj, Bool.true_and]
  have hgate : (⟨o.toWord.getLsbD 5, o.toWord.getLsbD 6, o.toWord.getLsbD 7, o.toWord.getLsbD 8⟩ : PerCh Bool) =
      o.gate :=
    PerCh.ext_get fun ch => by rw [← getLsbD_toWord_gate]; cases ch <;> rfl
  rw [ofWord, hled, hgate, getLsbD_toWord_clkOut, getLsbD_toWord_clkDir]

theorem Out.toWord_ofWord (w : OutWord) : (Out.ofWord w).toWord = w := by
  apply BitVec.eq_of_getLsbD_eq
  intro j hj
  simp only [ofWord, getLsbD_toWord, BitVec.getLsbD_extractLsb', Nat.zero_add, decide_eq_and_getLsbD w]
  cases w.getLsbD j
  · simp
  · simp
    omega

theorem clkPad_toWord (o : Out) : clkPad o.toWord = if o.clkDir then some o.clkOut else none := by
  rw [clkPad, Out.getLsbD_toWord_clkDir, Out.getLsbD_toWord_clkOut]

end Sys2Proof
end

section
open Sys2Proof Sys2Proof.Machine

/-- Settles O1: the fields of a word and the word of its fields determine each other, and the container's
bytes are those of the word. -/
theorem inputWordsDecodeAndEncodeAgree : Obligations.InputWordsDecodeAndEncodeAgree :=
  ⟨decode_encode_iter, encode_decode, decodeBytes_encodeBytes_iter⟩

/-- Settles O2: the same for the output word, and the pad is its bits 9 and 10. -/
theorem outputWordsRoundTrip : Obligations.OutputWordsRoundTrip :=
  ⟨Out.ofWord_toWord, Out.toWord_ofWord, clkPad_toWord⟩

/-- Settles O3: each word is the word of the sample that the vector names. -/
theorem vectorWordsDecodeToTheirSamples : Obligations.VectorWordsDecodeToTheirSamples :=
  ⟨rfl, rfl, rfl, rfl⟩

end

/-! 30_encoding.md section 5: the samples whose CTL7 pattern selects an operation. -/

section
namespace Sys2Proof.Machine

/-- A row that fixes no bit is considered on every sample. -/
theorem considered_of_no_fixed_bit {i : Instr} (hm : i.row.mask = 0#7) (hp : i.row.pattern = 0#7) (c : Ctl7) :
    i.considered c = true := by
  rw [Instr.considered, hm, hp, BitVec.and_zero, beq_self_eq_true]

/-- The only rows with a fixed bit are those that the clock mode guards, and SE.CLEAR and SE.REC. -/
theorem considered_or_guarded (i : Instr) : (∀ c, i.considered c = true) ∨
    i ∈ [.caTickExt, .caEdge, .caTickInt, .caClkout] ∨ ∃ ch, i = .seClear ch ∨ i = .seRec ch := by
  cases i with
  | caTickExt | caEdge | caTickInt | caClkout => exact .inr (.inl (by decide))
  | seClear0 => exact .inr (.inr ⟨.c0, .inl rfl⟩)
  | seClear1 => exact .inr (.inr ⟨.c1, .inl rfl⟩)
  | seClear2 => exact .inr (.inr ⟨.c2, .inl rfl⟩)
  | seClear3 => exact .inr (.inr ⟨.c3, .inl rfl⟩)
  | seRec0 => exact .inr (.inr ⟨.c0, .inr rfl⟩)
  | seRec1 => exact .inr (.inr ⟨.c1, .inr rfl⟩)
  | seRec2 => exact .inr (.inr ⟨.c2, .inr rfl⟩)
  | seRec3 => exact .inr (.inr ⟨.c3, .inr rfl⟩)
  | _ => exact .inl (considered_of_no_fixed_bit rfl rfl)

theorem considered_of_not_guarded {i : Instr} (hclock : i ∉ [.caTickExt, .caEdge, .caTickInt, .caClkout])
    (hstep : ∀ ch, i ≠ .seClear ch ∧ i ≠ .seRec ch) (c : Ctl7) : i.considered c = true := by
  obtain h | h | ⟨ch, h | h⟩ := considered_or_guarded i
  · exact h c
  · exact absurd h hclock
  · exact absurd h (hstep ch).1
  · exact absurd h (hstep ch).2

end Sys2Proof.Machine
end

section
open Sys2Proof Sys2Proof.Machine

/-- Settles O4: a guarded row is considered as the bits it fixes say, any other row always. -/
theorem patternsSelectOperations : Obligations.PatternsSelectOperations := fun inp =>
  ⟨considered_of_row_bit_zero_set rfl rfl inp, considered_of_row_bit_zero_set rfl rfl inp,
    considered_of_row_bit_zero_clear rfl rfl inp, considered_of_row_bit_zero_clear rfl rfl inp,
    seClear_considered inp, seRec_considered inp,
    fun _ _ hclock hstep => considered_of_not_guarded hclock hstep inp.ctl7⟩

end

/-! 40_iteration.md sections 1 and 2, 60_exceptions.md section 1: what an operation and a step answer. -/

section
namespace Sys2Proof.Machine

variable (s : State)

/-- The state an operation leaves; no operation answers anything else (`exec_eq_next_afterOp`). -/
def afterOp (i : Instr) (s : State) : State :=
  match exec i s with
  | .next t => t
  | .fault _ => s
  | .refused _ => s

/-- 60_exceptions.md R150: every operation has a next state in every state. -/
theorem exec_eq_next_afterOp (i : Instr) : exec i s = .next (afterOp i s) := by
  cases i <;> rfl

theorem step_of_pending_sample {w : InWord} {es : List Event} (h : s.pending = .sample w :: es) :
    step s = exec (decode w) { s with pending := es } := by
  rw [step, State.nextEvent, h]

theorem step_of_pending_rst {es : List Event} (h : s.pending = .rst :: es) :
    step s = .next (powerOn { s with pending := es }) := by
  rw [step, State.nextEvent, h]

theorem step_of_pending_nil (h : s.pending = []) :
    step s = exec (decode (Config.freeSample s.drawn)) { s with drawn := s.drawn + 1 } := by
  rw [step, State.nextEvent, h]

/-- What a step can do: one iteration, or a reset, in the state with the environment's event taken. -/
theorem step_cases : ∃ es n, (∃ inp, step s = .next (iterate inp { s with pending := es, drawn := n })) ∨
    step s = .next (powerOn { s with pending := es, drawn := n }) := by
  cases h : s.pending with
  | nil => exact ⟨s.pending, s.drawn + 1, .inl ⟨_, step_of_pending_nil s h⟩⟩
  | cons e es =>
    cases e with
    | sample w => exact ⟨es, s.drawn, .inl ⟨_, step_of_pending_sample s h⟩⟩
    | rst => exact ⟨es, s.drawn, .inr (step_of_pending_rst s h)⟩

theorem safe : Safe s := by
  obtain ⟨es, n, ⟨inp, h⟩ | h⟩ := step_cases s
  · exact ⟨_, h⟩
  · exact ⟨_, h⟩

/-- A table word is read as the word of its container's lowest 79 bits. -/
theorem decodeTableWord_eq_some {nbits w : Nat} {i : Instr} (h : decodeTableWord nbits w = some i) :
    i = decode (BitVec.ofNat 79 (w % 2 ^ nbits)) := by
  have hbytes := decodeBytes_bytesOf (w % 2 ^ nbits) []
  rw [List.append_nil] at hbytes
  rw [decodeTableWord, hbytes] at h
  split at h
  · exact (Option.some.inj h).symm
  · cases h

theorem step_withFetchWord (nbits w : Nat) :
    step (s.withFetchWord nbits w) = exec (decode (BitVec.ofNat 79 (w % 2 ^ nbits))) s := rfl

end Sys2Proof.Machine
end

section
open Sys2Proof Sys2Proof.Machine

/-- Settles O5: by what the next event is. -/
theorem stepRunsTheDecodedWord : Obligations.StepRunsTheDecodedWord :=
  ⟨fun s _ _ h => step_of_pending_sample s h, step_of_pending_nil⟩

/-- Settles O6: `rst` runs `powerOn`, which keeps only the parameters and the environment. -/
theorem resetEventLosesTheWholeState : Obligations.ResetEventLosesTheWholeState :=
  fun s _ h => step_of_pending_rst s h

/-- Settles O7: the decoder and the placed event read the same 79 bits of the table word. -/
theorem stepRunsThePlacedTableWord : Obligations.StepRunsThePlacedTableWord := by
  intro s nbits w i h
  rw [decodeTableWord_eq_some h, step_withFetchWord]

/-- Settles O8: by what a step can do, and by the answer of each operation. -/
theorem nothingEverStops : Obligations.NothingEverStops :=
  ⟨safe, fun i s => ⟨_, exec_eq_next_afterOp s i⟩⟩

/-- Settles O12: the listed values are those of `State.reset`, written out there. -/
theorem resetLeavesTheListedValues : Obligations.ResetLeavesTheListedValues := by
  have hseq (ch : Ch) : State.reset.seq.get ch = 0#32 := PerCh.get_const 0#32 ch
  refine ⟨rfl, rfl, rfl, rfl, rfl, rfl, rfl, rfl, rfl, PerCh.get_const false, fun ch i => ?_,
    PerCh.get_const false, rfl, rfl, rfl⟩
  rw [State.memRead, hseq, BitVec.getLsbD_zero]

end


/-! 10_state.md sections 1 and 2: the registers each operation writes, and what no operation depends on. -/

section
namespace Sys2Proof.Machine

/-- The column "written by" of 10_state.md section 1, for `i` run from `s` to `t`; of the wires only the
latched sample. -/
structure WritesOnlyOwn (i : Instr) (s t : State) : Prop where
  mode : i ≠ .caMode → t.modeExt = s.modeExt ∧ t.clkDir = s.clkDir
  pulsePrev : i ≠ .caEdge → t.pulsePrev = s.pulsePrev
  delay : i ≠ .caDelay → t.delay = s.delay
  cyc : i ≠ .caCyc → t.cyc = s.cyc
  thrCtr : i ≠ .caThr → t.thrCtr = s.thrCtr
  count : i ≠ .seAdv → t.count = s.count
  numStepsPrev : i ≠ .dmDet → t.numStepsPrev = s.numStepsPrev
  dispCd : i ≠ .dmDet → i ≠ .dmSel → t.dispCd = s.dispCd
  pressedPrev : ∀ ch, i ≠ .sePrev ch → t.pressedPrev.get ch = s.pressedPrev.get ch
  seq : ∀ ch, i ≠ .seClear ch → i ≠ .seRec ch → t.seq.get ch = s.seq.get ch
  gate : ∀ ch, i ≠ .gcGate ch → t.gate.get ch = s.gate.get ch
  clkOut : i ≠ .caClkout → t.clkOut = s.clkOut
  led : i ≠ .dmEnc → t.led = s.led
  out : i ≠ .out → t.out = s.out
  latched : (∀ inp, i ≠ .sample inp) → t.wires.inp = s.wires.inp
  cfg : t.cfg = s.cfg
  pending : t.pending = s.pending
  drawn : t.drawn = s.drawn

variable (s : State) (ch : Ch)

/-- A channel's operation leaves the other channels' values. -/
theorem get_set_of_op_ne {α : Type} (op : Ch → Instr) (v : PerCh α) (x : α) {ch ch' : Ch}
    (h : op ch ≠ op ch') : (v.set ch x).get ch' = v.get ch' :=
  PerCh.get_set_ne v x fun e => h (congrArg op e.symm)

theorem seClear_writesOnlyOwn : WritesOnlyOwn (.seClear ch) s (seClear ch s) := by
  rw [seClear_eq]
  constructor
  case seq => exact fun _ h _ => get_set_of_op_ne Instr.seClear _ _ h
  all_goals simp

theorem seRec_writesOnlyOwn : WritesOnlyOwn (.seRec ch) s (seRec ch s) := by
  rw [seRec_eq]
  constructor
  case seq => exact fun _ _ h => get_set_of_op_ne Instr.seRec _ _ h
  all_goals simp

theorem sePrev_writesOnlyOwn : WritesOnlyOwn (.sePrev ch) s (sePrev ch s) := by
  rw [sePrev_eq]
  constructor
  case pressedPrev => exact fun _ h => get_set_of_op_ne Instr.sePrev _ _ h
  all_goals simp

theorem gcThr_writesOnlyOwn : WritesOnlyOwn (.gcThr ch) s (gcThr ch s) := by
  rw [gcThr_eq]
  constructor <;> simp

theorem gcGate_writesOnlyOwn : WritesOnlyOwn (.gcGate ch) s (gcGate ch s) := by
  rw [gcGate_eq]
  constructor
  case gate => exact fun _ h => get_set_of_op_ne Instr.gcGate _ _ h
  all_goals simp

/-- By the equation of each operation, an update of the registers in its row of the list. -/
theorem afterOp_writesOnlyOwn (i : Instr) (hiter : ∀ inp, i ≠ .iter inp) :
    WritesOnlyOwn i s (afterOp i s) := by
  cases i with
  | iter inp => exact absurd rfl (hiter inp)
  | seClear0 => exact seClear_writesOnlyOwn s .c0
  | seClear1 => exact seClear_writesOnlyOwn s .c1
  | seClear2 => exact seClear_writesOnlyOwn s .c2
  | seClear3 => exact seClear_writesOnlyOwn s .c3
  | seRec0 => exact seRec_writesOnlyOwn s .c0
  | seRec1 => exact seRec_writesOnlyOwn s .c1
  | seRec2 => exact seRec_writesOnlyOwn s .c2
  | seRec3 => exact seRec_writesOnlyOwn s .c3
  | sePrev0 => exact sePrev_writesOnlyOwn s .c0
  | sePrev1 => exact sePrev_writesOnlyOwn s .c1
  | sePrev2 => exact sePrev_writesOnlyOwn s .c2
  | sePrev3 => exact sePrev_writesOnlyOwn s .c3
  | gcThr0 => exact gcThr_writesOnlyOwn s .c0
  | gcThr1 => exact gcThr_writesOnlyOwn s .c1
  | gcThr2 => exact gcThr_writesOnlyOwn s .c2
  | gcThr3 => exact gcThr_writesOnlyOwn s .c3
  | gcGate0 => exact gcGate_writesOnlyOwn s .c0
  | gcGate1 => exact gcGate_writesOnlyOwn s .c1
  | gcGate2 => exact gcGate_writesOnlyOwn s .c2
  | gcGate3 => exact gcGate_writesOnlyOwn s .c3
  | sample inp => show WritesOnlyOwn _ s (sample inp s); rw [sample_eq]; constructor <;> simp
  | nsteps => show WritesOnlyOwn _ s (nsteps s); rw [nsteps_eq]; constructor <;> simp
  | caMode => show WritesOnlyOwn _ s (caMode s); rw [caMode_eq]; constructor <;> simp
  | caThr => show WritesOnlyOwn _ s (caThr s); rw [caThr_eq]; constructor <;> simp
  | caDelay => show WritesOnlyOwn _ s (caDelay s); rw [caDelay_eq]; constructor <;> simp
  | caTickExt => show WritesOnlyOwn _ s (caTickExt s); rw [caTickExt_eq]; constructor <;> simp
  | caTickInt => show WritesOnlyOwn _ s (caTickInt s); rw [caTickInt_eq]; constructor <;> simp
  | caEdge => show WritesOnlyOwn _ s (caEdge s); rw [caEdge_eq]; constructor <;> simp
  | caCyc => show WritesOnlyOwn _ s (caCyc s); rw [caCyc_eq]; constructor <;> simp
  | caClkout => show WritesOnlyOwn _ s (caClkout s); rw [caClkout_eq]; constructor <;> simp
  | seAdv => show WritesOnlyOwn _ s (seAdv s); rw [seAdv_eq]; constructor <;> simp
  | dmDet => show WritesOnlyOwn _ s (dmDet s); rw [dmDet_eq]; constructor <;> simp
  | dmSel => show WritesOnlyOwn _ s (dmSel s); rw [dmSel_eq]; constructor <;> simp
  | dmEnc => show WritesOnlyOwn _ s (dmEnc s); rw [dmEnc_eq]; constructor <;> simp
  | out => show WritesOnlyOwn _ s (present s); rw [present_eq]; constructor <;> simp

theorem afterOp_cfg (i : Instr) : (afterOp i s).cfg = s.cfg := by
  by_cases h : ∃ inp, i = .iter inp
  · obtain ⟨inp, rfl⟩ := h
    exact iterate_cfg inp s
  · exact (afterOp_writesOnlyOwn s i (not_exists.mp h)).cfg

end Sys2Proof.Machine
end

section
open Sys2Proof Sys2Proof.Machine

/-- Settles O24: the clauses are those of `WritesOnlyOwn`. -/
theorem everyRegisterHasItsWriters : Obligations.EveryRegisterHasItsWriters := by
  intro i s hiter
  have h := afterOp_writesOnlyOwn s i hiter
  exact ⟨_, exec_eq_next_afterOp s i, h.mode, h.pulsePrev, h.delay, h.cyc, h.thrCtr, h.count, h.numStepsPrev,
    h.dispCd, h.pressedPrev, h.seq, h.gate, h.clkOut, h.led, h.out, h.cfg, h.pending, h.drawn⟩

end

/-! 40_iteration.md section 1, 20_memory.md section 4: ITER as its operations, one after another. -/

section
namespace Sys2Proof.Machine

/-- Operations applied one after another. -/
def applyOps (is : List Instr) (s : State) : State := is.foldl (fun s i => afterOp i s) s

theorem applyOps_cons (i : Instr) (is : List Instr) (s : State) :
    applyOps (i :: is) s = applyOps is (afterOp i s) := rfl

theorem runOperations_eq (is : List Instr) (s : State) : runOperations is s = .next (applyOps is s) := by
  induction is generalizing s with
  | nil => rfl
  | cons i is ih => rw [runOperations, exec_eq_next_afterOp, applyOps_cons, ← ih]

/-- The operations that follow CA.MODE, and so see the mode of the latched sample. -/
def operationsAfterMode : List Instr :=
  [.caThr, .caDelay, .caTickExt, .caTickInt, .caEdge, .caCyc, .caClkout,
    .seClear0, .seClear1, .seClear2, .seClear3, .seRec0, .seRec1, .seRec2, .seRec3,
    .sePrev0, .sePrev1, .sePrev2, .sePrev3, .seAdv,
    .gcThr0, .gcThr1, .gcThr2, .gcThr3, .gcGate0, .gcGate1, .gcGate2, .gcGate3,
    .dmDet, .dmSel, .dmEnc, .out]

theorem operations_eq (inp : In) :
    operations inp = .sample inp :: .nsteps :: .caMode :: operationsAfterMode := rfl

theorem applyOps_sample_nsteps_caMode (inp : In) (is : List Instr) (s : State) :
    applyOps (.sample inp :: .nsteps :: .caMode :: is) s = applyOps is (caMode (nsteps (sample inp s))) := rfl

theorem iterate_eq_applyOps (inp : In) (s : State) :
    iterate inp s = endIteration (applyOps operationsAfterMode (caMode (nsteps (sample inp s)))) := by
  rfl

theorem not_iter_of_mem_operationsAfterMode {i : Instr} (h : i ∈ operationsAfterMode) (inp : In) :
    i ≠ .iter inp := by
  rintro rfl
  simp [operationsAfterMode] at h

/-- A change of the state that commutes with each operation commutes with all of them in turn. -/
theorem applyOps_comm (g : State → State) {is : List Instr}
    (h : ∀ i ∈ is, ∀ s, afterOp i (g s) = g (afterOp i s)) (s : State) :
    applyOps is (g s) = g (applyOps is s) := by
  induction is generalizing s with
  | nil => rfl
  | cons i is ih =>
    rw [applyOps_cons, h i List.mem_cons_self, ih fun j hj => h j (List.mem_cons_of_mem i hj), applyOps_cons]

/-! Operations whose pattern does not match. -/

/-- What the patterns depend on from CA.MODE on: the latched sample and its mode. -/
def Latched (inp : In) (s : State) : Prop := s.wires.inp = inp ∧ s.modeExt = inp.extSel

theorem latched_caMode (inp : In) (s : State) : Latched inp (caMode (nsteps (sample inp s))) := by
  rw [Latched, caMode_eq]
  exact ⟨rfl, rfl⟩

theorem latched_afterOp {inp : In} {s : State} {i : Instr} (hi : i ∈ operationsAfterMode)
    (h : Latched inp s) : Latched inp (afterOp i s) := by
  have hw := afterOp_writesOnlyOwn s i (not_iter_of_mem_operationsAfterMode hi)
  have hmode : i ≠ .caMode := by rintro rfl; simp [operationsAfterMode] at hi
  have hsample : ∀ inp, i ≠ .sample inp := by rintro inp rfl; simp [operationsAfterMode] at hi
  exact ⟨(hw.latched hsample).trans h.1, (hw.mode hmode).1.trans h.2⟩

/-- The state with the wire `edge` cleared: SE.REC writes this wire, which only SE.REC itself reads, also
where its pattern does not match. -/
def State.dropEdge (s : State) : State := s.setWires { s.wires with edge := PerCh.const false }

theorem endIteration_dropEdge (s : State) : endIteration s.dropEdge = endIteration s := rfl

/-- No operation reads the wire `edge` that another left. -/
theorem afterOp_dropEdge {i : Instr} (hi : ∀ inp, i ≠ .iter inp) (s : State) :
    (afterOp i s.dropEdge).dropEdge = (afterOp i s).dropEdge := by
  cases i with
  | iter inp => exact absurd rfl (hi inp)
  | sample _ | nsteps | caThr | sePrev0 | sePrev1 | sePrev2 | sePrev3 | gcThr0 | gcThr1 | gcThr2 | gcThr3
  | gcGate0 | gcGate1 | gcGate2 | gcGate3 | dmEnc | out => rfl
  | caMode | caDelay | caTickExt | caTickInt | caEdge | caCyc | caClkout | seAdv | dmDet | dmSel
  | seClear0 | seClear1 | seClear2 | seClear3 | seRec0 | seRec1 | seRec2 | seRec3 =>
    simp only [afterOp, exec, execCaMode, execCaDelay, execCaTickExt, execCaTickInt, execCaEdge, execCaCyc,
      execCaClkout, execSeAdv, execDmDet, execDmSel, execSeClear0, execSeClear1, execSeClear2, execSeClear3,
      execSeRec0, execSeRec1, execSeRec2, execSeRec3, caMode_eq, caDelay_eq, caTickExt_eq, caTickInt_eq,
      caEdge_eq, caCyc_eq, caClkout_eq, seAdv_eq, dmDet_eq, dmSel_eq, seClear_eq, seRec_eq]
    rfl

/-- In internal mode the operations of external mode do nothing. -/
theorem externalOp_eq_self {s : State} (h : s.modeExt = false) : caTickExt s = s ∧ caEdge s = s := by
  simp [caTickExt, caEdge, h]

/-- In external mode the operations of internal mode do nothing. -/
theorem internalOp_eq_self {s : State} (h : s.modeExt = true) : caTickInt s = s ∧ caClkout s = s := by
  simp [caTickInt, caClkout, h]

theorem dropEdge_seRec_of_not_records {s : State} {ch : Ch} (h : ¬ s.records ch = true) :
    (seRec ch s).dropEdge = s.dropEdge := by
  rw [seRec_eq, if_neg h]
  exact (congrArg State.dropEdge (memWrite_memRead_self (s.setWires _) ch s.count)).trans rfl

/-- An operation whose pattern does not match leaves everything but the wire `edge`. -/
theorem dropEdge_afterOp_of_not_considered {inp : In} {s : State} {i : Instr} (h : Latched inp s)
    (hc : i.considered inp.ctl7 = false) : (afterOp i s).dropEdge = s.dropEdge := by
  obtain ⟨rfl, hmode⟩ := h
  obtain hall | hclock | ⟨ch, rfl | rfl⟩ := considered_or_guarded i
  · exact absurd hc (by rw [hall]; decide)
  · simp only [List.mem_cons, List.not_mem_nil, or_false] at hclock
    obtain rfl | rfl | rfl | rfl := hclock
    · rw [considered_of_row_bit_zero_set rfl rfl] at hc
      exact congrArg _ (externalOp_eq_self (hmode.trans hc)).1
    · rw [considered_of_row_bit_zero_set rfl rfl] at hc
      exact congrArg _ (externalOp_eq_self (hmode.trans hc)).2
    · rw [considered_of_row_bit_zero_clear rfl rfl, Bool.not_eq_false'] at hc
      exact congrArg _ (internalOp_eq_self (hmode.trans hc)).1
    · rw [considered_of_row_bit_zero_clear rfl rfl, Bool.not_eq_false'] at hc
      exact congrArg _ (internalOp_eq_self (hmode.trans hc)).2
  · rw [seClear_considered] at hc
    have hself := seClear_eq_self s ch (by rw [← Bool.and_eq_true]; exact ne_true_of_eq_false hc)
    rw [afterOp, exec_seClear, hself]
  · have hnot : ¬ s.records ch = true := by
      intro hrec
      obtain ⟨hbtn, hclear, -⟩ := (records_eq_true_iff s ch).mp hrec
      rw [seRec_considered, show s.wires.inp.btn.get ch = true from hbtn,
        show s.wires.inp.clear = false from hclear] at hc
      exact absurd hc (by decide)
    rw [afterOp, exec_seRec]
    exact dropEdge_seRec_of_not_records hnot

/-- Running only the operations whose pattern matches differs in the wire `edge` at most. -/
theorem dropEdge_applyOps_filter {inp : In} {is : List Instr} (his : ∀ i ∈ is, i ∈ operationsAfterMode)
    {s t : State} (hs : Latched inp s) (hst : s.dropEdge = t.dropEdge) :
    (applyOps (is.filter fun i => i.considered inp.ctl7) s).dropEdge = (applyOps is t).dropEdge := by
  induction is generalizing s t with
  | nil => exact hst
  | cons i is ih =>
    have hi := his i List.mem_cons_self
    have hrest := fun j hj => his j (List.mem_cons_of_mem i hj)
    have hcongr : (afterOp i s).dropEdge = (afterOp i t).dropEdge := by
      have hiter := not_iter_of_mem_operationsAfterMode hi
      rw [← afterOp_dropEdge hiter s, hst, afterOp_dropEdge hiter t]
    rw [applyOps_cons, List.filter_cons]
    split
    · rw [applyOps_cons]
      exact ih hrest (latched_afterOp hi hs) hcongr
    · next hc =>
      refine ih hrest hs (Eq.trans ?_ hcongr)
      exact (dropEdge_afterOp_of_not_considered hs (Bool.not_eq_true _ ▸ hc)).symm

/-- SAMPLE, NSTEPS and CA.MODE are considered on every sample. -/
theorem consideredOperations_eq (inp : In) : consideredOperations inp =
    .sample inp :: .nsteps :: .caMode :: operationsAfterMode.filter fun i => i.considered inp.ctl7 := by
  have hfirst {i : Instr} (is : List Instr) (hm : i.row.mask = 0#7) (hp : i.row.pattern = 0#7) :=
    List.filter_cons_of_pos (p := fun i => i.considered inp.ctl7) (l := is)
      (considered_of_no_fixed_bit hm hp inp.ctl7)
  rw [consideredOperations, operations_eq, hfirst _ rfl rfl, hfirst _ rfl rfl, hfirst _ rfl rfl]

end Sys2Proof.Machine
end

section
open Sys2Proof Sys2Proof.Machine

/-- Settles O9: what the operations that are not considered would have written is the wire `edge`, and
the end of the iteration drops the wires. -/
theorem iterationIsItsConsideredOperations : Obligations.IterationIsItsConsideredOperations := by
  intro inp s
  refine ⟨_, runOperations_eq _ s, ?_⟩
  have h := dropEdge_applyOps_filter (fun _ hi => hi) (latched_caMode inp s) rfl
  rw [exec_iter, iterate_eq_applyOps, consideredOperations_eq, applyOps_sample_nsteps_caMode,
    ← endIteration_dropEdge, ← h, endIteration_dropEdge]

end

/-! 40_iteration.md section 1: what an iteration leaves in each register, over the natural numbers. -/

section
namespace Sys2Proof.Machine

variable (inp : In) (s : State)

theorem recomputeOf_eq_true_iff (p : PDelay) (c : BitVec 9) :
    recomputeOf p c = true ↔ p = .p1 ∨ c.toNat = 0 := by
  rw [recomputeOf, Bool.or_eq_true, beq_iff_eq, beq_iff_eq, ← BitVec.toNat_inj]
  rfl

theorem clkOutOf_halfWindow (cyc delay : BitVec 13) :
    clkOutOf cyc (halfWindow delay) = decide (cyc.toNat < delay.toNat / 2) := by
  have hdelay := delay.isLt
  rw [clkOutOf, decide_eq_decide, BitVec.lt_def, BitVec.toNat_setWidth, halfWindow_toNat]
  omega

theorem gateOf_thrOf (cell : Bool) (cyc : BitVec 13) (duty : Reading) (delay : BitVec 13) :
    gateOf cell cyc (thrOf duty delay) =
      (cell && decide (cyc.toNat < max 1 (duty.toNat * delay.toNat / 4096))) := by
  simp only [gateOf, BitVec.lt_def, thrOf_toNat]

theorem iterDelay_toNat : (iterDelay inp s).toNat =
    if s.cfg.pDelay = .p1 ∨ s.thrCtr.toNat = 0 then 4224 - inp.tempo.toNat else s.delay.toNat := by
  simp only [iterDelay, recomputeOf_eq_true_iff]
  split
  · exact delayOf_toNat _
  · rfl

theorem tickOf_eq_decide : tickOf inp s =
    if inp.extSel then inp.pulse && !s.pulsePrev
    else decide ((iterDelay inp s).toNat ≤ s.cyc.toNat) := by
  simp only [tickOf_eq, tickExtOf, tickIntOf, BitVec.le_def]

theorem iterCyc_toNat : (iterCyc inp s).toNat =
    if tickOf inp s then 0 else min (s.cyc.toNat + 1) 8191 := by
  rw [iterCyc]
  split
  · rfl
  · exact sat13_toNat _

theorem iterCount_toNat : (iterCount inp s).toNat =
    if tickOf inp s then
      if inp.steps.toNat / 128 + 1 ≤ s.count.toNat + 1 then 0 else s.count.toNat + 1
    else s.count.toNat := by
  rw [iterCount]
  split
  · rw [nextCount_toNat _ _ (nsOf_toNat_le _), nsOf_toNat]
  · rfl

theorem iterCount_lt_of_tick (h : tickOf inp s = true) :
    (iterCount inp s).toNat < inp.steps.toNat / 128 + 1 := by
  rw [iterCount_toNat, if_pos h]
  split <;> omega

theorem iterHold_toNat : (iterHold inp s).toNat =
    if inp.steps.toNat / 128 + 1 = s.numStepsPrev.toNat then s.dispCd.toNat else 2000 := by
  have h : stepsChangedOf (nsOf inp.steps) s.numStepsPrev = true ↔
      ¬ inp.steps.toNat / 128 + 1 = s.numStepsPrev.toNat := by
    rw [stepsChangedOf_eq_true_iff, ← nsOf_toNat, BitVec.toNat_inj]
  rw [iterHold, ite_congr (propext h) (fun _ => rfl) (fun _ => rfl), ite_not]
  split <;> rfl

theorem iterate_dispCd_toNat : (iterate inp s).dispCd.toNat = (iterHold inp s).toNat - 1 := by
  rw [iterate_dispCd]
  split
  · next h =>
    have hpos : 0 < (iterHold inp s).toNat := h
    have hlt := (iterHold inp s).isLt
    rw [BitVec.toNat_sub, BitVec.toNat_ofNat]
    omega
  · next h =>
    have hzero : ¬ 0 < (iterHold inp s).toNat := h
    omega

theorem iterVal_toNat : (iterVal inp s).toNat =
    if 0 < (iterHold inp s).toNat then (inp.steps.toNat / 128 + 1) % 32 else (iterCount inp s).toNat := by
  simp only [iterVal, BitVec.lt_def, BitVec.toNat_ofNat, Nat.zero_mod]
  split
  · rw [BitVec.toNat_setWidth, nsOf_toNat]
  · rfl

theorem iterate_shows (h : s.CfgOk) : (iterate inp s).shows (iterVal inp s).toNat := by
  intro k
  rw [iterate_led, iterate_cfg, encodeLed_line (ledPerm_wf_of_cfgOk h), BitVec.testBit_toNat]

theorem iterate_thrCtr_toNat : (iterate inp s).thrCtr.toNat = (s.thrCtr.toNat + 1) % 512 := by
  rw [iterate_thrCtr, BitVec.toNat_add]
  rfl

theorem iterate_clkPad : (iterate inp s).clkPad =
    if (iterate inp s).clkDir then some (iterate inp s).clkOut else none := by
  rw [State.clkPad, iterate_out, State.outWord, clkPad_toWord, State.outFields]

/-- CA.MODE keeps `clk_dir = not mode_ext` (10_state.md R26). -/
theorem iterate_clkDir_eq_not (h : s.clkDir = !s.modeExt) : (iterate inp s).clkDir = !inp.extSel := by
  rw [iterate_clkDir]
  split
  · rfl
  · next hdiff =>
    rw [modeDiffOf, bne_iff_ne, not_not] at hdiff
    rw [h, hdiff]

end Sys2Proof.Machine
end

/-! 10_state.md section 4, 30_encoding.md section 6: the well-formedness predicate holds after reset and
every step keeps it. -/

section
namespace Sys2Proof.Machine

variable (inp : In) (s : State)

theorem iterDelay_bounds (h : 129 ≤ s.delay.toNat ∧ s.delay.toNat ≤ 4224) :
    129 ≤ (iterDelay inp s).toNat ∧ (iterDelay inp s).toNat ≤ 4224 := by
  have htempo := inp.tempo.isLt
  rw [iterDelay_toNat]
  split <;> omega

theorem iterHold_le (h : s.dispCd.toNat ≤ 2000) : (iterHold inp s).toNat ≤ 2000 := by
  rw [iterHold_toNat]
  split <;> omega

theorem iterate_regsOk (h : s.RegsOk) : (iterate inp s).RegsOk := by
  obtain ⟨hdir, hmin, hmax, -, hcd⟩ := h
  have hdelay := iterDelay_bounds inp s ⟨hmin, hmax⟩
  have hhold := iterHold_le inp s hcd
  refine ⟨?_, ?_, ?_, ?_, ?_⟩
  · rw [iterate_clkDir_eq_not inp s hdir, iterate_modeExt]
  · rw [iterate_delay]; exact hdelay.1
  · rw [iterate_delay]; exact hdelay.2
  · rw [iterate_numStepsPrev]; exact nsOf_toNat_le _
  · rw [iterate_dispCd_toNat]; omega

theorem one_le_iterate_numStepsPrev : 1 ≤ (iterate inp s).numStepsPrev.toNat := by
  rw [iterate_numStepsPrev]
  exact one_le_nsOf_toNat _

/-- Only a tick iteration ends with `cyc = 0`. -/
theorem tickOf_of_iterCyc_eq_zero (h : iterCyc inp s = 0#13) : tickOf inp s = true := by
  by_contra htick
  have hcyc := iterCyc_toNat inp s
  rw [h, if_neg htick, BitVec.toNat_ofNat] at hcyc
  omega

theorem iterate_atBoundary : (iterate inp s).AtBoundary := by
  refine ⟨iterate_out inp s, iterate_wires inp s, fun hzero => ?unreached, fun hcyc _ => ?afterTick⟩
  case unreached =>
    have hone := one_le_iterate_numStepsPrev inp s
    rw [hzero] at hone
    exact absurd hone (by decide)
  case afterTick =>
    rw [iterate_cyc] at hcyc
    rw [iterate_count, iterate_numStepsPrev, nsOf_toNat]
    exact iterCount_lt_of_tick inp s (tickOf_of_iterCyc_eq_zero inp s hcyc)

/-- No hypothesis on the pins, the wires or `count`: an iteration writes them all or, without a tick,
leaves `cyc` above 0. -/
theorem iterate_inv (hcfg : s.CfgOk) (hregs : s.RegsOk) : (iterate inp s).Inv := by
  refine ⟨?_, iterate_regsOk inp s hregs, iterate_atBoundary inp s⟩
  rw [State.CfgOk, iterate_cfg]
  exact hcfg

theorem powerOn_inv (h : s.CfgOk) : (powerOn s).Inv := by
  have hregs : State.reset.RegsOk := by decide
  have hpins : State.reset.out = State.reset.outWord := by decide
  have hfresh : (powerOn s).Fresh := rfl
  exact ⟨h, hregs, hpins, rfl, fun _ => hfresh, fun _ hn => absurd hfresh hn⟩

theorem step_inv {s t : State} (h : s.Inv) (hstep : step s = .next t) : t.Inv := by
  obtain ⟨hcfg, hregs, -⟩ := h
  obtain ⟨es, n, ⟨inp, h⟩ | h⟩ := step_cases s
  · obtain rfl := Host.Outcome.next.inj (h.symm.trans hstep)
    exact iterate_inv inp _ hcfg hregs
  · obtain rfl := Host.Outcome.next.inj (h.symm.trans hstep)
    exact powerOn_inv _ hcfg

/-- Any number of steps, whatever the environment does. -/
theorem runSteps_inv (n : Nat) (h : s.Inv) : ∃ t, runSteps n s = .next t ∧ t.Inv := by
  induction n generalizing s with
  | zero => exact ⟨s, rfl, h⟩
  | succ n ih =>
    obtain ⟨t, ht⟩ := safe s
    rw [runSteps_succ ht]
    exact ih t (step_inv h ht)

/-- The state after reset with any parameters and any events to come. -/
theorem reset_inv {cfg : Config} (h : cfg.wf = true) (es : List Event) :
    ({ State.reset with cfg := cfg, pending := es } : State).Inv :=
  powerOn_inv { State.reset with cfg := cfg, pending := es } h

end Sys2Proof.Machine
end

section
open Sys2Proof Sys2Proof.Machine

/-- Settles O10: an iteration and a reset both leave a well-formed state. -/
theorem stepKeepsTheInvariants : Obligations.StepKeepsTheInvariants := fun _ _ => step_inv

/-- Settles O11: reset is `powerOn` with the default parameters. -/
theorem resetMeetsTheInvariants : Obligations.ResetMeetsTheInvariants :=
  ⟨powerOn_inv State.reset (by decide), powerOn_inv⟩

/-- Settles O57: the listed patterns are those that `State.Inv` excludes, which holds after reset and is
kept by every step. -/
theorem listedStatesAreNeverReached : Obligations.ListedStatesAreNeverReached := by
  intro cfg es n hcfg
  obtain ⟨t, hrun, hinv⟩ := runSteps_inv _ n (reset_inv hcfg es)
  obtain ⟨-, ⟨hdir, hmin, hmax, hns, hcd⟩, -, -, hfresh, -⟩ := hinv
  refine ⟨t, hrun, ?_, by omega, by omega, by omega, fun hzero => ?_, by omega,
    fun inp => ⟨_, exec_iter t inp, one_le_iterate_numStepsPrev inp t⟩⟩
  · rw [hdir]; exact (Bool.not_ne_self _).symm
  · exact hfresh (BitVec.eq_of_toNat_eq hzero)

end

/-! Runs of iterations, one after another. -/

section
namespace Sys2Proof.Machine

variable (s : State)

/-- The state after iterations on the samples, the first one first. -/
def afterRun (inps : List In) (s : State) : State := inps.foldl (fun s inp => iterate inp s) s

theorem runIterations_eq_afterRun (inps : List In) : runIterations inps s = .next (afterRun inps s) :=
  runIterations_eq s inps

@[simp] theorem afterRun_nil : afterRun [] s = s := rfl

@[simp] theorem afterRun_cons (inp : In) (inps : List In) :
    afterRun (inp :: inps) s = afterRun inps (iterate inp s) := List.foldl_cons ..

theorem afterRun_append (xs ys : List In) : afterRun (xs ++ ys) s = afterRun ys (afterRun xs s) :=
  List.foldl_append

theorem afterRun_concat (inps : List In) (inp : In) :
    afterRun (inps ++ [inp]) s = iterate inp (afterRun inps s) := afterRun_append s inps [inp]

/-- What every iteration of a run keeps holds at its end. -/
theorem afterRun_induction {P : State → Prop} {inps : List In} (hs : P s)
    (hstep : ∀ inp ∈ inps, ∀ t, P t → P (iterate inp t)) : P (afterRun inps s) := by
  induction inps generalizing s with
  | nil => exact hs
  | cons inp inps ih =>
    rw [afterRun_cons]
    exact ih _ (hstep inp List.mem_cons_self s hs) fun i hi => hstep i (List.mem_cons_of_mem inp hi)

theorem afterRun_cfg (inps : List In) : (afterRun inps s).cfg = s.cfg :=
  afterRun_induction (P := fun t => t.cfg = s.cfg) s rfl fun inp _ t h => (iterate_cfg inp t).trans h

theorem afterRun_pending (inps : List In) : (afterRun inps s).pending = s.pending :=
  afterRun_induction (P := fun t => t.pending = s.pending) s rfl fun inp _ t h =>
    (iterate_pending inp t).trans h

theorem afterRun_inv (inps : List In) (h : s.Inv) : (afterRun inps s).Inv := by
  refine afterRun_induction s h fun inp _ t ht => ?_
  obtain ⟨hcfg, hregs, -⟩ := ht
  exact iterate_inv inp t hcfg hregs

end Sys2Proof.Machine
end

/-! 41_clock_arbiter.md section 5, 92_eei_decisions.md D10, D20: the machine refines the reference machine
over the natural numbers, whose counter has no upper bound. -/

section
namespace Sys2Proof.Machine

/-- The tick of the reference machine's iteration. -/
def Ref.tickOf (cfg : Config) (inp : In) (r : Ref) : Bool :=
  if inp.extSel then inp.pulse && !r.pulsePrev else decide ((r.iterate cfg inp).delay ≤ r.cyc)

theorem Ref.run_cons (cfg : Config) (inp : In) (inps : List In) (r : Ref) :
    r.run cfg (inp :: inps) = (r.iterate cfg inp).run cfg inps := List.foldl_cons ..

theorem Ref.iterate_cyc (cfg : Config) (inp : In) (r : Ref) :
    (r.iterate cfg inp).cyc = if r.tickOf cfg inp then 0 else r.cyc + 1 := rfl

theorem Ref.iterate_count (cfg : Config) (inp : In) (r : Ref) : (r.iterate cfg inp).count =
    if r.tickOf cfg inp then (if inp.steps.toNat / 128 + 1 ≤ r.count + 1 then 0 else r.count + 1)
    else r.count := rfl

theorem Ref.iterate_gate (cfg : Config) (inp : In) (r : Ref) (ch : Ch) : (r.iterate cfg inp).gate ch =
    ((r.iterate cfg inp).cell ch (r.iterate cfg inp).count && decide ((r.iterate cfg inp).cyc <
      max 1 ((inp.duty.get ch).toNat * (r.iterate cfg inp).delay / 4096))) := rfl

theorem Ref.iterate_clkOut (cfg : Config) (inp : In) (r : Ref) : (r.iterate cfg inp).clkOut =
    if inp.extSel then r.clkOut else decide ((r.iterate cfg inp).cyc < (r.iterate cfg inp).delay / 2) := rfl

/-- A bound that the saturated counter can reach is met by it when it is met by the counter. -/
theorem lt_iff_of_min_eq {c m x : Nat} (hm : m ≤ 8191) (hx : min c 8191 = x) : c < m ↔ x < m := by
  omega

theorem threshold_le (duty : Reading) {delay : Nat} (h : delay ≤ 4224) :
    max 1 (duty.toNat * delay / 4096) ≤ 4222 := by
  have hprod : duty.toNat * delay ≤ 4095 * 4224 := Nat.mul_le_mul (Nat.le_of_lt_succ duty.isLt) h
  omega

variable {inp : In} {s : State} {r : Ref}

theorem Refines.iterate_delay (h : Refines s r) :
    (r.iterate s.cfg inp).delay = (iterDelay inp s).toNat := by
  rw [iterDelay_toNat, ← h.thrCtr, ← h.delay]
  rfl

/-- `delay` is at most 4224, so the saturated counter reaches it when the unbounded one does. -/
theorem Refines.tickOf_eq (h : Refines s r) (hregs : s.RegsOk) : r.tickOf s.cfg inp = tickOf inp s := by
  obtain ⟨-, hmin, hmax, -, -⟩ := hregs
  obtain ⟨-, hdelay⟩ := iterDelay_bounds inp s ⟨hmin, hmax⟩
  have hreach : (iterDelay inp s).toNat ≤ r.cyc ↔ (iterDelay inp s).toNat ≤ s.cyc.toNat := by
    have hcyc := h.cyc
    omega
  rw [Ref.tickOf, tickOf_eq_decide, h.pulsePrev, h.iterate_delay, decide_eq_decide.mpr hreach]

theorem Refines.iterate_cyc (h : Refines s r) (hregs : s.RegsOk) :
    min (r.iterate s.cfg inp).cyc 8191 = (iterCyc inp s).toNat := by
  have hcyc := h.cyc
  rw [Ref.iterate_cyc, iterCyc_toNat, h.tickOf_eq hregs]
  split <;> omega

theorem Refines.iterate_count (h : Refines s r) (hregs : s.RegsOk) :
    (r.iterate s.cfg inp).count = (iterCount inp s).toNat := by
  rw [Ref.iterate_count, iterCount_toNat, h.tickOf_eq hregs, h.count]

theorem Refines.iterate_cell (h : Refines s r) (ch : Ch) (i : BitVec 5) :
    (r.iterate s.cfg inp).cell ch i.toNat = (iterate inp s).memRead ch i := by
  have hcur : i.toNat = s.count.toNat ↔ i = s.count := BitVec.toNat_inj
  simp only [Ref.iterate, iterate_memRead, iterCell, h.count, h.pressed, h.cell, hcur]
  by_cases hi : i = s.count
  · subst hi
    cases inp.btn.get ch <;> cases inp.clear <;> simp
  · simp [hi]

theorem Refines.iterate_gate (h : Refines s r) (hregs : s.RegsOk) (ch : Ch) :
    (r.iterate s.cfg inp).gate ch = (iterate inp s).gate.get ch := by
  obtain ⟨-, hmin, hmax, -, -⟩ := id hregs
  have hthr := threshold_le (inp.duty.get ch) (iterDelay_bounds inp s ⟨hmin, hmax⟩).2
  rw [Ref.iterate_gate, h.iterate_count hregs, h.iterate_cell, h.iterate_delay,
    Sys2Proof.Machine.iterate_gate, gateOf_thrOf,
    decide_eq_decide.mpr (lt_iff_of_min_eq (hthr.trans (by decide)) (h.iterate_cyc hregs))]

theorem Refines.iterate_clkOut (h : Refines s r) (hregs : s.RegsOk) :
    (r.iterate s.cfg inp).clkOut = (iterate inp s).clkOut := by
  have hhalf : (iterDelay inp s).toNat / 2 ≤ 8191 := by
    have hlt := (iterDelay inp s).isLt
    omega
  rw [Ref.iterate_clkOut, Sys2Proof.Machine.iterate_clkOut, clkOutOf_halfWindow, h.clkOut, h.iterate_delay,
    decide_eq_decide.mpr (lt_iff_of_min_eq hhalf (h.iterate_cyc hregs))]

theorem Refines.iterate_hold (h : Refines s r) :
    (r.iterate s.cfg inp).hold = (iterHold inp s).toNat - 1 := by
  rw [iterHold_toNat, ← h.nsPrev, ← h.hold]
  rfl

theorem Refines.iterate_shown (h : Refines s r) (hregs : s.RegsOk) :
    (r.iterate s.cfg inp).shown = (iterVal inp s).toNat := by
  rw [iterVal_toNat, iterHold_toNat, ← h.nsPrev, ← h.hold, ← h.iterate_count hregs]
  rfl

/-- 41_clock_arbiter.md section 5: saturation is not observable, and no width overflows. -/
theorem Refines.iterate (hinv : s.Inv) (h : Refines s r) :
    Refines (iterate inp s) (r.iterate s.cfg inp) := by
  obtain ⟨hcfg, hregs, -⟩ := hinv
  constructor
  case ext => exact (iterate_modeExt inp s).symm
  case dir =>
    rw [iterate_clkDir, ← h.dir, ← h.ext]
    by_cases hext : inp.extSel = r.ext
    · simp [Ref.iterate, hext, modeDiffOf_self]
    · simp [Ref.iterate, hext, modeDiffOf_eq_true_of_ne hext]
  case pulsePrev => rw [iterate_pulsePrev, ← h.pulsePrev]; rfl
  case delay => rw [Sys2Proof.Machine.iterate_delay, h.iterate_delay]
  case cyc => rw [Sys2Proof.Machine.iterate_cyc, h.iterate_cyc hregs]
  case thrCtr => rw [iterate_thrCtr_toNat, ← h.thrCtr]; rfl
  case count => rw [Sys2Proof.Machine.iterate_count, h.iterate_count hregs]
  case nsPrev => rw [iterate_numStepsPrev, nsOf_toNat]; rfl
  case hold => rw [iterate_dispCd_toNat, h.iterate_hold]
  case pressed => exact fun ch => by rw [iterate_pressedPrev]; rfl
  case cell => exact h.iterate_cell
  case gate => exact h.iterate_gate hregs
  case clkOut => exact h.iterate_clkOut hregs
  case shown => rw [h.iterate_shown hregs]; exact iterate_shows inp s hcfg

theorem Refines.afterRun (hinv : s.Inv) (h : Refines s r) (inps : List In) :
    Refines (afterRun inps s) (Ref.run s.cfg inps r) := by
  induction inps generalizing s r with
  | nil => exact h
  | cons inp inps ih =>
    have hnext := ih (s := Machine.iterate inp s) (afterRun_inv s [inp] hinv) (h.iterate hinv)
    rwa [iterate_cfg, ← afterRun_cons, ← Ref.run_cons] at hnext

/-- The reset states correspond, with any parameters. -/
theorem refines_reset (cfg : Config) : Refines { State.reset with cfg := cfg } Ref.reset := by
  constructor
  case cell =>
    intro ch i
    cases ch <;> exact (BitVec.getLsbD_zero ..).symm
  case shown => exact fun k => (BitVec.getLsbD_zero ..).trans (Nat.zero_testBit _).symm
  case pressed | gate => exact fun ch => (PerCh.get_const false ch).symm
  all_goals rfl

end Sys2Proof.Machine
end

section
open Sys2Proof Sys2Proof.Machine

/-- Settles O28: the step lemma of the refinement. -/
theorem iterationRefinesTheUnboundedMachine : Obligations.IterationRefinesTheUnboundedMachine :=
  fun inp s _ hinv h => ⟨_, exec_iter s inp, h.iterate hinv⟩

/-- Settles O29: by induction on the samples, from the reset states. -/
theorem runsFromResetRefineTheUnboundedMachine : Obligations.RunsFromResetRefineTheUnboundedMachine := by
  intro cfg inps hcfg
  have hinv := reset_inv hcfg []
  exact ⟨_, runIterations_eq_afterRun _ inps, (refines_reset cfg).afterRun hinv inps, afterRun_inv _ inps hinv,
    afterRun_pending _ inps⟩

end

/-! 41_clock_arbiter.md section 7: the internal tick window. -/

section
namespace Sys2Proof.Machine

variable {inp : In} {s : State}

/-- An internal window under a constant tempo, `n` iterations after a tick. -/
structure InWindow (inp : In) (s t : State) (n : Nat) : Prop where
  pDelay : t.cfg.pDelay = .p1
  cyc : t.cyc.toNat = n
  count : t.count = s.count

theorem iterDelay_of_p1 (hp : s.cfg.pDelay = .p1) : (iterDelay inp s).toNat = 4224 - inp.tempo.toNat := by
  rw [iterDelay_toNat, if_pos (.inl hp)]

theorem InWindow.tickOf_eq {t : State} {n : Nat} (hint : inp.extSel = false) (h : InWindow inp s t n) :
    tickOf inp t = decide (4224 - inp.tempo.toNat ≤ n) := by
  rw [tickOf_eq_decide, hint, iterDelay_of_p1 h.pDelay, h.cyc, if_neg Bool.false_ne_true]

theorem InWindow.next {t : State} {n : Nat} (hint : inp.extSel = false) (h : InWindow inp s t n)
    (hn : n < 4224 - inp.tempo.toNat) : InWindow inp s (iterate inp t) (n + 1) := by
  have htick : ¬ tickOf inp t = true := by
    rw [h.tickOf_eq hint, decide_eq_true_iff]
    omega
  refine ⟨?_, ?_, ?_⟩
  · rw [iterate_cfg, h.pDelay]
  · rw [iterate_cyc, iterCyc_toNat, if_neg htick, h.cyc]
    omega
  · rw [iterate_count, iterCount, if_neg htick, h.count]

/-- No tick comes in the first `delay` iterations. -/
theorem inWindow_afterRun (hp : s.cfg.pDelay = .p1) (hint : inp.extSel = false) (hcyc : s.cyc = 0#13)
    {n : Nat} (hn : n ≤ 4224 - inp.tempo.toNat) :
    InWindow inp s (afterRun (List.replicate n inp) s) n := by
  induction n with
  | zero => exact ⟨hp, by rw [List.replicate_zero, afterRun_nil, hcyc]; rfl, rfl⟩
  | succ n ih =>
    rw [List.replicate_succ', afterRun_concat]
    exact (ih (by omega)).next hint (by omega)

theorem iterate_clkOut_of_p1 (hp : s.cfg.pDelay = .p1) (hint : inp.extSel = false) :
    (iterate inp s).clkOut =
      decide ((iterate inp s).cyc.toNat < (4224 - inp.tempo.toNat) / 2) := by
  rw [iterate_clkOut, hint, if_neg Bool.false_ne_true, clkOutOf_halfWindow, iterDelay_of_p1 hp, iterate_cyc]

end Sys2Proof.Machine
end

section
open Sys2Proof Sys2Proof.Machine

/-- Settles O30: by induction the counter is `n` after `n` iterations of the window, so the next tick is
the iteration that finds it at `delay`. -/
theorem internalTickPeriodIsDelayPlusOne : Obligations.InternalTickPeriodIsDelayPlusOne := by
  intro s inp hp hint hcyc
  have htempo := inp.tempo.isLt
  refine ⟨fun n hpos hn => ⟨_, runIterations_eq_afterRun _ _, ?_⟩, ⟨_, runIterations_eq_afterRun _ _, ?_⟩⟩
  · obtain ⟨m, rfl⟩ := Nat.exists_eq_add_of_lt hpos
    rw [Nat.zero_add] at hn ⊢
    have hbefore := inWindow_afterRun hp hint hcyc (Nat.le_of_succ_le hn)
    have hafter := hbefore.next hint hn
    rw [List.replicate_succ', afterRun_concat]
    exact ⟨hafter.cyc, hafter.count, by rw [iterate_clkOut_of_p1 hbefore.pDelay hint, hafter.cyc]⟩
  · have hlast := inWindow_afterRun hp hint hcyc le_rfl
    have htick : tickOf inp (afterRun (List.replicate (4224 - inp.tempo.toNat) inp) s) = true := by
      rw [hlast.tickOf_eq hint, decide_eq_true le_rfl]
    rw [List.replicate_succ', afterRun_concat, iterate_clkOut_of_p1 hlast.pDelay hint, iterate_cyc,
      iterCyc_toNat, iterate_count, iterCount_toNat, if_pos htick, if_pos htick, hlast.count]
    exact ⟨rfl, decide_eq_true (by omega), rfl⟩

end

/-! 42_step_engine_fsm.md R113, R117: external pulses. -/

section
namespace Sys2Proof.Machine

variable {inp : In} {s : State}

theorem tickOf_external (hext : inp.extSel = true) : tickOf inp s = (inp.pulse && !s.pulsePrev) := by
  rw [tickOf_eq_decide, if_pos hext]

/-- One step round the cycle of `k` steps. -/
theorem wrap_eq_mod {c k : Nat} (h : c < k) : (if k ≤ c + 1 then 0 else c + 1) = (c + 1) % k := by
  split
  · next hwrap => rw [show c + 1 = k by omega, Nat.mod_self]
  · exact (Nat.mod_eq_of_lt (by omega)).symm

/-- A pulse, one sample high and one low, is one step. -/
theorem count_after_pulse {hi lo : In} (hhi : hi.extSel = true) (hp : hi.pulse = true)
    (hlo : lo.extSel = true) (hnp : lo.pulse = false) (hlow : s.pulsePrev = false)
    (hcount : s.count.toNat < hi.steps.toNat / 128 + 1) :
    (iterate lo (iterate hi s)).count.toNat = (s.count.toNat + 1) % (hi.steps.toNat / 128 + 1) ∧
      (iterate lo (iterate hi s)).pulsePrev = false := by
  have hrise : tickOf hi s = true := by rw [tickOf_external hhi, hp, hlow]; rfl
  have hfall : ¬ tickOf lo (iterate hi s) = true := by rw [tickOf_external hlo, hnp]; exact Bool.false_ne_true
  refine ⟨?_, by rw [iterate_pulsePrev, if_pos hlo, hnp]⟩
  rw [iterate_count, iterCount, if_neg hfall, iterate_count, iterCount_toNat, if_pos hrise, wrap_eq_mod hcount]

theorem count_after_pulses {hi lo : In} (hhi : hi.extSel = true) (hp : hi.pulse = true)
    (hlo : lo.extSel = true) (hnp : lo.pulse = false) (hlow : s.pulsePrev = false)
    (hcount : s.count.toNat < hi.steps.toNat / 128 + 1) (j : Nat) :
    (afterRun (List.replicate j [hi, lo]).flatten s).count.toNat =
      (s.count.toNat + j) % (hi.steps.toNat / 128 + 1) ∧
    (afterRun (List.replicate j [hi, lo]).flatten s).pulsePrev = false := by
  induction j with
  | zero => exact ⟨(Nat.mod_eq_of_lt hcount).symm, hlow⟩
  | succ j ih =>
    obtain ⟨hc, hl⟩ := ih
    have hpulse := count_after_pulse hhi hp hlo hnp hl (hc ▸ Nat.mod_lt _ (Nat.succ_pos _))
    rw [List.replicate_succ', List.flatten_append, List.flatten_singleton, afterRun_append, afterRun_cons,
      afterRun_cons, afterRun_nil, ← Nat.add_assoc, ← Nat.mod_add_mod, ← hc]
    exact hpulse

end Sys2Proof.Machine
end

section
open Sys2Proof Sys2Proof.Machine

/-- Settles O31: by induction on the number of pulses, each of which is one step. -/
theorem pulsesWalkTheStepsAndWrap : Obligations.PulsesWalkTheStepsAndWrap :=
  fun s _ _ j hhi hp hlo hnp hlow hcount =>
    ⟨_, runIterations_eq_afterRun s _, count_after_pulses hhi hp hlo hnp hlow hcount j⟩

end

/-! 44_display_mux_encoder.md, consequences: the hold of the display. -/

section
namespace Sys2Proof.Machine

variable {s : State}

/-- `n` iterations after the one that changed the step count to `k`. -/
structure Holding (k n : Nat) (t : State) : Prop where
  cfgOk : t.CfgOk
  numStepsPrev : t.numStepsPrev.toNat = k
  dispCd : t.dispCd.toNat = 1999 - n
  shows_stepCount : n < 2000 → t.shows (k % 32)
  shows_count : 2000 ≤ n → t.shows t.count.toNat

/-- What an iteration with the step count `k` makes of the countdown that DM.SEL reads. -/
theorem holding_iterate {inp : In} {k n : Nat} (hcfg : s.CfgOk) (hk : inp.steps.toNat / 128 + 1 = k)
    (hhold : (iterHold inp s).toNat = 2000 - n) : Holding k n (iterate inp s) := by
  have hshows := iterate_shows inp s hcfg
  rw [iterVal_toNat, hhold, hk] at hshows
  refine ⟨?_, ?_, ?_, fun hn => ?_, fun hn => ?_⟩
  · rw [State.CfgOk, iterate_cfg]; exact hcfg
  · rw [iterate_numStepsPrev, nsOf_toNat, hk]
  · rw [iterate_dispCd_toNat, hhold]; omega
  · rwa [if_pos (by omega)] at hshows
  · rwa [if_neg (by omega), ← iterate_count] at hshows

theorem Holding.next {inp : In} {k n : Nat} {t : State} (h : Holding k n t)
    (hk : inp.steps.toNat / 128 + 1 = k) : Holding k (n + 1) (iterate inp t) := by
  refine holding_iterate h.cfgOk hk ?_
  rw [iterHold_toNat, if_pos (hk.trans h.numStepsPrev.symm), h.dispCd]
  omega

theorem Holding.afterRun {k n : Nat} {inps : List In} (hk : ∀ inp ∈ inps, inp.steps.toNat / 128 + 1 = k)
    (h : Holding k n s) : Holding k (n + inps.length) (afterRun inps s) := by
  induction inps generalizing s n with
  | nil => exact h
  | cons inp inps ih =>
    rw [afterRun_cons, List.length_cons, Nat.add_comm inps.length, ← Nat.add_assoc]
    exact ih (fun i hi => hk i (List.mem_cons_of_mem inp hi)) (h.next (hk inp List.mem_cons_self))

end Sys2Proof.Machine
end

section
open Sys2Proof Sys2Proof.Machine

/-- Settles O32: the first sample sets the countdown to 2000, and every further one counts down. -/
theorem displayHoldsExactly2000Iterations : Obligations.DisplayHoldsExactly2000Iterations := by
  intro s k inps hcfg hne hk hchange
  refine ⟨_, runIterations_eq_afterRun s inps, ?_⟩
  cases inps with
  | nil => exact absurd rfl hne
  | cons inp inps =>
    have hfirst := hk inp List.mem_cons_self
    have hhold : (iterHold inp s).toNat = 2000 - 0 := by
      rw [iterHold_toNat, hfirst, if_neg hchange]
    have h := (holding_iterate hcfg hfirst hhold).afterRun fun i hi => hk i (List.mem_cons_of_mem inp hi)
    rw [List.length_cons, afterRun_cons]
    exact ⟨fun hn => h.shows_stepCount (by omega), fun hn => h.shows_count (by omega)⟩

end

/-! 42_step_engine_fsm.md section 4: a held button. -/

section
namespace Sys2Proof.Machine

variable {inp : In} {s : State} {ch : Ch}

/-- With the button held and no clear, the cell of the current step on any channel. -/
theorem iterCell_of_held (hheld : inp.btn.get ch = true ∧ inp.clear = false) :
    iterCell inp s ch = (allowFill ch || !s.pressedPrev.get ch || s.memRead ch s.count) := by
  rw [iterCell, if_pos hheld.1, hheld.2, Bool.not_false, Bool.true_and]

/-- On a fill channel a held button sets the current step and erases no other. -/
theorem fill_memRead_iterate (hfill : allowFill ch = true)
    (hheld : inp.btn.get ch = true ∧ inp.clear = false) {i : BitVec 5}
    (h : i = s.count ∨ s.memRead ch i = true) : (iterate inp s).memRead ch i = true := by
  rw [iterate_memRead]
  split
  · rw [iterCell_of_held hheld, hfill]; rfl
  · next hi => exact h.resolve_left hi

/-- On another channel a button that was held already changes nothing. -/
theorem held_memRead_iterate (hfill : allowFill ch = false)
    (hheld : inp.btn.get ch = true ∧ inp.clear = false) (hprev : s.pressedPrev.get ch = true)
    (i : BitVec 5) : (iterate inp s).memRead ch i = s.memRead ch i := by
  rw [iterate_memRead]
  split
  · next hi => rw [iterCell_of_held hheld, hfill, hprev, hi]; rfl
  · rfl

/-- The press edge sets the current step alone. -/
theorem press_memRead_iterate (hheld : inp.btn.get ch = true ∧ inp.clear = false)
    (hprev : s.pressedPrev.get ch = false) (i : BitVec 5) :
    (iterate inp s).memRead ch i = if i = s.count then true else s.memRead ch i := by
  rw [iterate_memRead, iterCell_of_held hheld, hprev, Bool.not_false, Bool.or_true, Bool.true_or]

theorem fill_memRead_afterRun (hfill : allowFill ch = true) {inps : List In}
    (hheld : ∀ inp ∈ inps, inp.btn.get ch = true ∧ inp.clear = false) {i : BitVec 5}
    (h : s.memRead ch i = true) : (afterRun inps s).memRead ch i = true :=
  afterRun_induction (P := fun t => t.memRead ch i = true) s h fun inp hin _ ht =>
    fill_memRead_iterate hfill (hheld inp hin) (.inr ht)

theorem held_memRead_afterRun (hfill : allowFill ch = false) {inps : List In}
    (hheld : ∀ inp ∈ inps, inp.btn.get ch = true ∧ inp.clear = false) (hprev : s.pressedPrev.get ch = true)
    (i : BitVec 5) : (afterRun inps s).memRead ch i = s.memRead ch i := by
  have h := afterRun_induction (P := fun t => t.pressedPrev.get ch = true ∧ t.memRead ch i = s.memRead ch i)
    s (inps := inps) ⟨hprev, rfl⟩ fun inp hin t ht =>
      ⟨by rw [iterate_pressedPrev]; exact (hheld inp hin).1,
        (held_memRead_iterate hfill (hheld inp hin) ht.1 i).trans ht.2⟩
  exact h.2

/-- A press and hold on another channel than the fill channel. -/
theorem press_memRead_afterRun (hfill : allowFill ch = false) {inps : List In} (hne : inps ≠ [])
    (hheld : ∀ inp ∈ inps, inp.btn.get ch = true ∧ inp.clear = false) (hprev : s.pressedPrev.get ch = false)
    (i : BitVec 5) :
    (afterRun inps s).memRead ch i = if i = s.count then true else s.memRead ch i := by
  cases inps with
  | nil => exact absurd rfl hne
  | cons inp inps =>
    have hfirst := hheld inp List.mem_cons_self
    have hpressed : (iterate inp s).pressedPrev.get ch = true := by
      rw [iterate_pressedPrev]; exact hfirst.1
    rw [afterRun_cons, held_memRead_afterRun hfill (fun i hi => hheld i (List.mem_cons_of_mem inp hi)) hpressed,
      press_memRead_iterate hfirst hprev]

/-- On a fill channel the step current at the start of a run is set at its end. -/
theorem fill_memRead_count_afterRun (hfill : allowFill ch = true) {inps : List In} (hne : inps ≠ [])
    (hheld : ∀ inp ∈ inps, inp.btn.get ch = true ∧ inp.clear = false) :
    (afterRun inps s).memRead ch s.count = true := by
  cases inps with
  | nil => exact absurd rfl hne
  | cons inp inps =>
    have hset := fill_memRead_iterate hfill (hheld inp List.mem_cons_self) (s := s) (.inl rfl)
    exact fill_memRead_afterRun hfill (fun i hi => hheld i (List.mem_cons_of_mem inp hi)) hset

end Sys2Proof.Machine
end

section
open Sys2Proof Sys2Proof.Machine

/-- Settles O33: a fill channel records in every iteration, another one only at the press edge. -/
theorem heldButtonSmearsOnlyOnFillChannels : Obligations.HeldButtonSmearsOnlyOnFillChannels := by
  intro ch s inps post hne hheld
  have hpost := fun inp h => hheld inp (List.mem_append_right inps h)
  have hboth : inps ++ post ≠ [] := fun h => hne (List.append_eq_nil_iff.mp h).2
  refine ⟨_, _, runIterations_eq_afterRun s inps, runIterations_eq_afterRun s (inps ++ post),
    fun hfill => ?fill, fun hfill hprev => ?other⟩
  case fill =>
    rw [afterRun_append]
    exact fill_memRead_count_afterRun hfill hne hpost
  case other =>
    have h := press_memRead_afterRun hfill hboth hheld hprev
    exact ⟨(h s.count).trans (if_pos rfl), fun i hi => (h i).trans (if_neg hi)⟩

end

/-! 41_clock_arbiter.md R91: the throttle's phase. -/

section
namespace Sys2Proof.Machine

variable {s : State}

theorem afterRun_thrCtr (inps : List In) :
    (afterRun inps s).thrCtr.toNat = (s.thrCtr.toNat + inps.length) % 512 := by
  induction inps generalizing s with
  | nil => exact (Nat.mod_eq_of_lt s.thrCtr.isLt).symm
  | cons inp inps ih =>
    rw [afterRun_cons, ih, iterate_thrCtr_toNat, Nat.mod_add_mod, List.length_cons, Nat.add_assoc,
      Nat.add_comm 1]

theorem throttled_delay_afterRun (hp : s.cfg.pDelay = .p512) (hthr : s.thrCtr.toNat = 0) (inps : List In)
    (hne : inps ≠ []) : ∃ inp, inps[(inps.length - 1) / 512 * 512]? = some inp ∧
      (afterRun inps s).delay.toNat = 4224 - inp.tempo.toNat := by
  induction inps using List.reverseRecOn with
  | nil => exact absurd rfl hne
  | append_singleton inps last ih =>
    have hctr := afterRun_thrCtr (s := s) inps
    rw [hthr, Nat.zero_add] at hctr
    have hnot : ¬ (afterRun inps s).cfg.pDelay = .p1 := by rw [afterRun_cfg, hp]; decide
    rw [afterRun_concat, iterate_delay, iterDelay_toNat, hctr, List.length_append, List.length_singleton,
      Nat.add_sub_cancel]
    by_cases hzero : inps.length % 512 = 0
    · refine ⟨last, ?_, if_pos (.inr hzero)⟩
      rw [Nat.div_mul_cancel (Nat.dvd_of_mod_eq_zero hzero)]
      exact List.getElem?_concat_length
    · have hsome : inps ≠ [] := by rintro rfl; exact hzero rfl
      obtain ⟨inp, hinp, hdelay⟩ := ih hsome
      have hpos := List.length_pos_iff.mpr hsome
      have hslot : inps.length / 512 * 512 = (inps.length - 1) / 512 * 512 := by omega
      refine ⟨inp, ?_, by rw [if_neg (not_or.mpr ⟨hnot, hzero⟩), hdelay]⟩
      rw [hslot, List.getElem?_append_left (by omega), hinp]

end Sys2Proof.Machine
end

section
open Sys2Proof Sys2Proof.Machine

/-- Settles O34: by induction on the run from its end; the last iteration recomputes exactly if its
number is a multiple of 512. -/
theorem throttledDelayFollowsEvery512thSample : Obligations.ThrottledDelayFollowsEvery512thSample := by
  intro cfg inps hp hne
  obtain ⟨inp, hinp, hdelay⟩ := throttled_delay_afterRun (s := { State.reset with cfg := cfg }) hp rfl inps hne
  refine ⟨_, inp, runIterations_eq_afterRun _ inps, hinp, hdelay, ?_⟩
  rw [afterRun_thrCtr]
  exact congrArg (· % 512) (Nat.zero_add _)

end

/-! 10_state.md section 4: what holds at the end of an iteration, of the cells, the gates and the pad. -/

section
namespace Sys2Proof.Machine

variable {inp : In} {s : State}

/-- 42_step_engine_fsm.md section 4: under a held clear a pressed channel's current step is erased. -/
theorem iterate_memRead_of_clear (hclear : inp.clear = true) (ch : Ch) (i : BitVec 5) :
    (iterate inp s).memRead ch i = (s.memRead ch i && !(inp.btn.get ch && decide (i = s.count))) := by
  rw [iterate_memRead, iterCell, hclear]
  by_cases hi : i = s.count
  · subst hi
    cases inp.btn.get ch <;> simp
  · simp [hi]

/-- 43_gate_duty_calculator.md R126 with the threshold of R125, over the natural numbers. -/
theorem iterate_gate_eq (ch : Ch) : (iterate inp s).gate.get ch =
    ((iterate inp s).memRead ch (iterCount inp s) && decide ((iterCyc inp s).toNat <
      max 1 ((inp.duty.get ch).toNat * (iterDelay inp s).toNat / 4096))) := by
  rw [iterate_gate, gateOf_thrOf]

theorem iterate_gate_of_tick (htick : tickOf inp s = true) (ch : Ch) :
    (iterate inp s).gate.get ch = (iterate inp s).memRead ch (iterate inp s).count := by
  have hopen : (iterCyc inp s).toNat < max 1 ((inp.duty.get ch).toNat * (iterDelay inp s).toNat / 4096) := by
    rw [iterCyc_toNat, if_pos htick]
    omega
  rw [iterate_gate_eq, decide_eq_true hopen, Bool.and_true, iterate_count]

/-- 41_clock_arbiter.md R99, R101, R103. -/
theorem iterate_clkPad_of_dir (hdir : s.clkDir = !s.modeExt) : (iterate inp s).clkPad =
    if inp.extSel then none
    else some (decide ((iterate inp s).cyc.toNat < (iterate inp s).delay.toNat / 2)) := by
  rw [iterate_clkPad, iterate_clkDir_eq_not inp s hdir, iterate_clkOut, clkOutOf_halfWindow, iterate_cyc,
    iterate_delay]
  cases inp.extSel <;> rfl

end Sys2Proof.Machine
end

section
open Sys2Proof Sys2Proof.Machine

/-- Settles O13: each clause is the value of one register after the iteration. -/
theorem iterationEndsAsListed : Obligations.IterationEndsAsListed := by
  intro inp s
  refine ⟨_, exec_iter s inp, iterate_modeExt inp s, fun hdir => ?direction, ?stepCount, fun ch => ?button,
    fun hp => ?delay, fun htick => ⟨?cleared, ?inRange⟩, fun hquiet => ?kept⟩
  case direction => rw [iterate_clkDir_eq_not inp s hdir, iterate_modeExt]
  case stepCount => rw [iterate_numStepsPrev, nsOf_toNat]
  case button => rw [iterate_pressedPrev]
  case delay => rw [iterate_delay, iterDelay_of_p1 hp]
  case cleared => rw [iterate_cyc, iterCyc_toNat, if_pos htick]
  case inRange => rw [iterate_count]; exact iterCount_lt_of_tick inp s htick
  case kept => rw [iterate_count, iterCount, hquiet, if_neg Bool.false_ne_true]

/-- Settles O18: by the lemma that ITER writes no other cell. -/
theorem onlyPressedChannelsCurrentStepIsWritten : Obligations.OnlyPressedChannelsCurrentStepIsWritten :=
  fun inp s => ⟨_, exec_iter s inp, iterate_memRead_of_not_current_or_not_pressed inp s⟩

/-- Settles O19: SE.CLEAR erases the cell, and with clear SE.REC does not set it again. -/
theorem clearOverridesRecording : Obligations.ClearOverridesRecording :=
  fun inp s hclear => ⟨_, exec_iter s inp, iterate_memRead_of_clear hclear⟩

/-- Settles O20: a tick clears `cyc`, and a threshold is at least 1. -/
theorem gateInATickIterationIsTheNewCell : Obligations.GateInATickIterationIsTheNewCell :=
  fun inp s htick => ⟨_, exec_iter s inp, iterate_gate_of_tick htick⟩

/-- Settles O22: the pad is driven where `clk_dir` is set, with the level that CA.CLKOUT wrote. -/
theorem clockPadIsDrivenExactlyInInternalMode : Obligations.ClockPadIsDrivenExactlyInInternalMode :=
  fun inp s hdir => ⟨_, exec_iter s inp, iterate_clkPad_of_dir hdir⟩

end

/-! 70_reset_and_hazards.md section 1: the first iteration after reset. -/

section
namespace Sys2Proof.Machine

variable (cfg : Config) (inp : In)

/-- The state after reset with these parameters. -/
abbrev resetWith (cfg : Config) : State := { State.reset with cfg := cfg }

theorem resetWith_memRead (ch : Ch) (i : BitVec 5) : (resetWith cfg).memRead ch i = false :=
  ((refines_reset cfg).cell ch i).symm

/-- Under either `P_DELAY`: the throttle counter is 0 after reset. -/
theorem resetWith_iterDelay : (iterDelay inp (resetWith cfg)).toNat = 4224 - inp.tempo.toNat := by
  rw [iterDelay_toNat, if_pos (.inr rfl)]

/-- `cyc = 0` is below every `delay`, so only a pulse makes the first iteration a tick. -/
theorem resetWith_tickOf : tickOf inp (resetWith cfg) = (inp.extSel && inp.pulse) := by
  have htempo := inp.tempo.isLt
  have hcyc : ¬ 4224 - inp.tempo.toNat ≤ (resetWith cfg).cyc.toNat := by
    show ¬ _ ≤ 0
    omega
  rw [tickOf_eq_decide, resetWith_iterDelay, decide_eq_false hcyc]
  cases inp.extSel
  · rfl
  · exact Bool.and_true _

theorem resetWith_iterCyc :
    (iterCyc inp (resetWith cfg)).toNat = if (inp.extSel && inp.pulse) = true then 0 else 1 := by
  rw [iterCyc_toNat, resetWith_tickOf]
  rfl

theorem resetWith_iterCount : (iterCount inp (resetWith cfg)).toNat =
    if (inp.extSel && inp.pulse) = true ∧ 128 ≤ inp.steps.toNat then 1 else 0 := by
  have hcount : (resetWith cfg).count.toNat = 0 := rfl
  rw [iterCount_toNat, resetWith_tickOf, hcount, ite_and]
  split
  · split <;> split <;> omega
  · rfl

/-- DM.DET finds another step count than the reset value 0. -/
theorem resetWith_iterHold : (iterHold inp (resetWith cfg)).toNat = 2000 := by
  rw [iterHold_toNat]
  exact if_neg (Nat.succ_ne_zero _)

theorem resetWith_iterate_memRead (ch : Ch) (i : BitVec 5) : (iterate inp (resetWith cfg)).memRead ch i =
    (inp.btn.get ch && !inp.clear && decide (i = 0#5)) := by
  have hprev : (resetWith cfg).pressedPrev.get ch = false := PerCh.get_const false ch
  have hcount : (resetWith cfg).count = 0#5 := rfl
  rw [iterate_memRead, iterCell, hprev, resetWith_memRead, resetWith_memRead, hcount]
  by_cases hi : i = 0#5
  · cases inp.btn.get ch <;> simp [hi]
  · simp [hi]

theorem resetWith_iterate_gate (ch : Ch) : (iterate inp (resetWith cfg)).gate.get ch =
    (inp.btn.get ch && !inp.clear && decide ((iterate inp (resetWith cfg)).count.toNat = 0) &&
      decide ((iterate inp (resetWith cfg)).cyc.toNat <
        max 1 ((inp.duty.get ch).toNat * (4224 - inp.tempo.toNat) / 4096))) := by
  have hzero : (iterCount inp (resetWith cfg) = 0#5) = ((iterCount inp (resetWith cfg)).toNat = 0) :=
    propext BitVec.toNat_inj.symm
  rw [iterate_gate_eq, resetWith_iterate_memRead, resetWith_iterDelay, iterate_count, iterate_cyc]
  simp only [hzero]

end Sys2Proof.Machine
end

section
open Sys2Proof Sys2Proof.Machine

/-- Settles O21: each clause is one register's value after an iteration, taken at the reset values. -/
theorem firstIterationAfterReset : Obligations.FirstIterationAfterReset := by
  intro cfg inp hcfg
  have hpad := iterate_clkPad_of_dir (inp := inp) (s := resetWith cfg) rfl
  refine ⟨_, exec_iter (resetWith cfg) inp, ?stepCount, ?hold, ?display, ?delay,
    fun hint => ⟨?padDriven, ?cyc, ?count⟩, fun hext => ⟨?padFree, ?cycExt, ?countExt⟩,
    resetWith_iterate_memRead cfg inp, resetWith_iterate_gate cfg inp⟩
  case stepCount => rw [iterate_numStepsPrev, nsOf_toNat]
  case hold => rw [iterate_dispCd_toNat, resetWith_iterHold]
  case display =>
    have hshows := iterate_shows inp (resetWith cfg) hcfg
    rwa [iterVal_toNat, resetWith_iterHold, if_pos (by decide)] at hshows
  case delay => rw [iterate_delay, resetWith_iterDelay]
  case padDriven =>
    have htempo := inp.tempo.isLt
    have hhigh : 1 < (4224 - inp.tempo.toNat) / 2 := by omega
    rw [hpad, hint, if_neg Bool.false_ne_true, iterate_cyc, resetWith_iterCyc, hint, iterate_delay,
      resetWith_iterDelay]
    exact congrArg some (decide_eq_true hhigh)
  case cyc => rw [iterate_cyc, resetWith_iterCyc, hint]; rfl
  case count => rw [iterate_count, resetWith_iterCount, hint]; rfl
  case padFree => rw [hpad, if_pos hext]
  case cycExt => rw [iterate_cyc, resetWith_iterCyc, hext, Bool.true_and]
  case countExt => rw [iterate_count, resetWith_iterCount, hext, Bool.true_and]

end

/-! 10_state.md sections 1 to 3: what an iteration depends on. -/

section
namespace Sys2Proof.Machine

variable {a b : In} {s t : State}

/-- The samples and states agree on all that an iteration reads for anything but the throttle counter,
the clock level and the LED lines. Not read: the wires, the output registers and the pins. -/
structure SameReads (a b : In) (s t : State) : Prop where
  extSel : a.extSel = b.extSel := by rfl
  pulse : a.extSel = true → a.pulse = b.pulse := by exact fun _ => rfl
  clear : a.clear = b.clear := by rfl
  btn : a.btn = b.btn := by rfl
  duty : a.duty = b.duty := by rfl
  ns : nsOf a.steps = nsOf b.steps := by rfl
  delay : iterDelay a s = iterDelay b t := by rfl
  modeExt : s.modeExt = t.modeExt := by rfl
  clkDir : s.clkDir = t.clkDir := by rfl
  pulsePrev : s.pulsePrev = t.pulsePrev := by rfl
  cyc : s.cyc = t.cyc := by rfl
  count : s.count = t.count := by rfl
  numStepsPrev : s.numStepsPrev = t.numStepsPrev := by rfl
  dispCd : s.dispCd = t.dispCd := by rfl
  pressedPrev : s.pressedPrev = t.pressedPrev := by rfl
  seq : s.seq = t.seq := by rfl
  cfg : s.cfg = t.cfg := by rfl
  pending : s.pending = t.pending := by rfl
  drawn : s.drawn = t.drawn := by rfl

theorem setThrCtr_self (x : State) : x.setThrCtr x.thrCtr = x := rfl

theorem setClkOut_setOut_self (x : State) : (x.setClkOut x.clkOut).setOut x.out = x := rfl

theorem setThrCtr_setClkOut_setOut_self (x : State) (c : BitVec 9) :
    ((x.setThrCtr c).setClkOut x.clkOut).setOut x.out = x.setThrCtr c := rfl

theorem setClkOut_setOut_eq (x : State) (c : Bool) (o : OutWord) :
    (x.setClkOut c).setOut o = { x with clkOut := c, out := o } := rfl

theorem tickOf_congr (hext : a.extSel = b.extSel) (hpulse : a.extSel = true → a.pulse = b.pulse)
    (hdelay : iterDelay a s = iterDelay b t) (hprev : s.pulsePrev = t.pulsePrev) (hcyc : s.cyc = t.cyc) :
    tickOf a s = tickOf b t := by
  rw [tickOf_eq, tickOf_eq, ← hext, hdelay, hprev, hcyc]
  split
  · next h => rw [hpulse h]
  · rfl

theorem SameReads.tickOf_eq (h : SameReads a b s t) : tickOf a s = tickOf b t :=
  tickOf_congr h.extSel h.pulse h.delay h.pulsePrev h.cyc

theorem SameReads.iterCyc_eq (h : SameReads a b s t) : iterCyc a s = iterCyc b t := by
  rw [iterCyc, iterCyc, h.tickOf_eq, h.cyc]

theorem SameReads.iterCount_eq (h : SameReads a b s t) : iterCount a s = iterCount b t := by
  rw [iterCount, iterCount, h.tickOf_eq, h.count, h.ns]

theorem SameReads.iterHold_eq (h : SameReads a b s t) : iterHold a s = iterHold b t := by
  rw [iterHold, iterHold, h.ns, h.numStepsPrev, h.dispCd]

theorem SameReads.iterVal_eq (h : SameReads a b s t) : iterVal a s = iterVal b t := by
  rw [iterVal, iterVal, h.iterHold_eq, h.ns, h.iterCount_eq]

theorem SameReads.memRead_eq (h : SameReads a b s t) (ch : Ch) (i : BitVec 5) :
    (iterate a s).memRead ch i = (iterate b t).memRead ch i := by
  have hmem : s.memRead = t.memRead := by unfold State.memRead; rw [h.seq]
  rw [iterate_memRead, iterate_memRead, iterCell, iterCell, hmem, h.count, h.btn, h.clear, h.pressedPrev]

theorem SameReads.seq_eq (h : SameReads a b s t) : (iterate a s).seq = (iterate b t).seq :=
  seq_ext_memRead h.memRead_eq

theorem SameReads.gate_eq (h : SameReads a b s t) : (iterate a s).gate = (iterate b t).gate := by
  apply PerCh.ext_get
  intro ch
  rw [iterate_gate, iterate_gate, h.memRead_eq, h.iterCount_eq, h.iterCyc_eq, h.delay, h.duty]

theorem SameReads.pulsePrev_eq (h : SameReads a b s t) :
    (iterate a s).pulsePrev = (iterate b t).pulsePrev := by
  rw [iterate_pulsePrev, iterate_pulsePrev, ← h.extSel, h.pulsePrev]
  split
  · next hext => exact h.pulse hext
  · rfl

theorem SameReads.clkDir_eq (h : SameReads a b s t) : (iterate a s).clkDir = (iterate b t).clkDir := by
  rw [iterate_clkDir, iterate_clkDir, h.extSel, h.modeExt, h.clkDir]

theorem SameReads.clkOut_eq (h : SameReads a b s t) (hclk : a.extSel = true → s.clkOut = t.clkOut) :
    (iterate a s).clkOut = (iterate b t).clkOut := by
  rw [iterate_clkOut, iterate_clkOut, ← h.extSel, h.iterCyc_eq, h.delay]
  split
  · next hext => exact hclk hext
  · rfl

/-- With equal LED lines an iteration leaves the same state but for the throttle counter, the clock level
and the word that shows it. -/
theorem SameReads.iterate_frame (h : SameReads a b s t) (hled : (iterate a s).led = (iterate b t).led) :
    (((iterate a s).setThrCtr (iterate b t).thrCtr).setClkOut (iterate b t).clkOut).setOut
      (iterate b t).out = iterate b t := by
  apply State.ext
  case modeExt => simp [h.extSel]
  case clkDir => rw [setOut_clkDir, setClkOut_clkDir, setThrCtr_clkDir, h.clkDir_eq]
  case pulsePrev => rw [setOut_pulsePrev, setClkOut_pulsePrev, setThrCtr_pulsePrev, h.pulsePrev_eq]
  case delay => simp [h.delay]
  case cyc => simp [h.iterCyc_eq]
  case thrCtr => simp
  case count => simp [h.iterCount_eq]
  case numStepsPrev => simp [h.ns]
  case dispCd => simp [h.iterHold_eq]
  case pressedPrev => simp [h.btn]
  case seq => simp [h.seq_eq]
  case gate => simp [h.gate_eq]
  case clkOut => simp
  case led => rw [setOut_led, setClkOut_led, setThrCtr_led, hled]
  case out => simp
  case cfg => simp [h.cfg]
  case wires => simp
  case pending => simp [h.pending]
  case drawn => simp [h.drawn]

theorem SameReads.iterate_frame_of_thrCtr (h : SameReads a b s t) (hthr : s.thrCtr = t.thrCtr)
    (hled : (iterate a s).led = (iterate b t).led) :
    ((iterate a s).setClkOut (iterate b t).clkOut).setOut (iterate b t).out = iterate b t := by
  have hsame : (iterate b t).thrCtr = (iterate a s).thrCtr := by rw [iterate_thrCtr, iterate_thrCtr, hthr]
  have hframe := h.iterate_frame hled
  rwa [hsame, setThrCtr_self] at hframe

theorem SameReads.out_eq (h : SameReads a b s t) (hclk : (iterate a s).clkOut = (iterate b t).clkOut)
    (hled : (iterate a s).led = (iterate b t).led) : (iterate a s).out = (iterate b t).out := by
  simp only [iterate_out, State.outWord, State.outFields, hled, h.gate_eq, hclk, h.clkDir_eq]

theorem SameReads.iterate_eq_but_thrCtr (h : SameReads a b s t)
    (hclk : (iterate a s).clkOut = (iterate b t).clkOut) (hled : (iterate a s).led = (iterate b t).led) :
    (iterate a s).setThrCtr (iterate b t).thrCtr = iterate b t := by
  have hframe := h.iterate_frame hled
  rwa [← hclk, ← h.out_eq hclk hled, setThrCtr_setClkOut_setOut_self] at hframe

theorem SameReads.iterate_eq (h : SameReads a b s t) (hthr : s.thrCtr = t.thrCtr)
    (hclk : (iterate a s).clkOut = (iterate b t).clkOut) (hled : (iterate a s).led = (iterate b t).led) :
    iterate a s = iterate b t := by
  have hframe := h.iterate_frame_of_thrCtr hthr hled
  rwa [← hclk, ← h.out_eq hclk hled, setClkOut_setOut_self] at hframe

theorem SameReads.led_eq (h : SameReads a b s t) (hled : s.led = t.led) :
    (iterate a s).led = (iterate b t).led := by
  rw [iterate_led, iterate_led, h.cfg, h.iterVal_eq, hled]

/-- An admissible permutation leaves no line as it was (44_display_mux_encoder.md R137). -/
theorem encodeLed_congr {p : LedPerm} (h : p.wf = true) (val led led' : BitVec 5) :
    encodeLed p val led = encodeLed p val led' := by
  apply BitVec.eq_of_getLsbD_eq
  intro j hj
  obtain ⟨k, hk⟩ := ledPerm_line_surjective h ⟨j, hj⟩
  have hl := encodeLed_line h val led k
  have hr := encodeLed_line h val led' k
  rw [hk] at hl hr
  exact hl.trans hr.symm

theorem SameReads.led_eq_of_cfgOk (h : SameReads a b s t) (hcfg : t.CfgOk) :
    (iterate a s).led = (iterate b t).led := by
  rw [iterate_led, iterate_led, h.cfg, h.iterVal_eq, encodeLed_congr (ledPerm_wf_of_cfgOk hcfg)]

theorem SameReads.clkPad_eq (h : SameReads a b s t) (hdir : t.clkDir = !t.modeExt) :
    (iterate a s).clkPad = (iterate b t).clkPad := by
  have hdir' : s.clkDir = !s.modeExt := by rw [h.clkDir, h.modeExt, hdir]
  rw [iterate_clkPad_of_dir hdir, iterate_clkPad_of_dir hdir', h.extSel, iterate_cyc, iterate_cyc,
    h.iterCyc_eq, iterate_delay, iterate_delay, h.delay]

/-- Bit 9 of the output word, and no other, is the clock level (30_encoding.md R64). -/
theorem getLsbD_toWord_setClkOut (o : Out) (c : Bool) {k : Nat} (h : k ≠ 9) :
    ({ o with clkOut := c } : Out).toWord.getLsbD k = o.toWord.getLsbD k := by
  rw [Out.getLsbD_toWord, Out.getLsbD_toWord, decide_eq_false h, Bool.false_and, Bool.false_and]

/-- A clock level that differs is seen in bit 9 of the output word alone. -/
theorem SameReads.out_getLsbD_eq (h : SameReads a b s t) (hled : (iterate a s).led = (iterate b t).led)
    {k : Nat} (hk : k ≠ 9) : (iterate a s).out.getLsbD k = (iterate b t).out.getLsbD k := by
  have hfields : (iterate a s).outFields =
      { (iterate b t).outFields with clkOut := (iterate a s).clkOut } := by
    simp only [State.outFields, hled, h.gate_eq, h.clkDir_eq]
  rw [iterate_out, iterate_out, State.outWord, State.outWord, hfields, getLsbD_toWord_setClkOut _ _ hk]

end Sys2Proof.Machine
end

section
open Sys2Proof Sys2Proof.Machine

/-- Settles O14: the wires are not among what an iteration reads. -/
theorem iterationIgnoresEarlierWires : Obligations.IterationIgnoresEarlierWires := by
  intro inp s w
  have h : SameReads inp inp { s with wires := w } s := {}
  rw [exec_iter, exec_iter, h.iterate_eq rfl (h.clkOut_eq fun _ => rfl) (h.led_eq rfl)]

/-- Settles O16: the LED lines are all rewritten, the clock level in internal mode only, and in external
mode no pad shows it. -/
theorem outputRegistersAreNotReadBack : Obligations.OutputRegistersAreNotReadBack := by
  intro inp s g c l o hcfg hregs
  have h : SameReads inp inp { s with gate := g, clkOut := c, led := l, out := o } s := {}
  have hled := h.led_eq_of_cfgOk hcfg
  have hframe := h.iterate_frame_of_thrCtr rfl hled
  rw [setClkOut_setOut_eq] at hframe
  refine ⟨_, _, exec_iter s inp, exec_iter _ inp, hframe, fun k hk => ?bits, h.clkPad_eq hregs.1,
    fun hint => ?internal⟩
  case bits => exact h.out_getLsbD_eq hled fun e => hk (Fin.ext e)
  case internal =>
    exact h.iterate_eq rfl (h.clkOut_eq fun hext => absurd (hext.symm.trans hint) (by decide)) hled

/-- Settles O25: with `P_DELAY = 1` CA.DELAY recomputes whatever the counter. -/
theorem throttleCounterIdleWhenEveryIterationRecomputes :
    Obligations.ThrottleCounterIdleWhenEveryIterationRecomputes := by
  intro inp s x hp
  have h : SameReads inp inp s { s with thrCtr := x } :=
    { delay := by simp only [iterDelay, (recomputeOf_eq_true_iff _ _).mpr (.inl hp)] }
  have heq := h.iterate_eq_but_thrCtr (h.clkOut_eq fun _ => rfl) (h.led_eq rfl)
  rw [iterate_thrCtr] at heq
  exact ⟨_, exec_iter s inp, congrArg Host.Outcome.next heq.symm⟩

/-- Settles O26: in internal mode neither the tick nor the edge memory depends on the pulse bit. -/
theorem pulseIgnoredInInternalMode : Obligations.PulseIgnoredInInternalMode := by
  intro inp s p hint
  have h : SameReads { inp with pulse := p } inp s s :=
    { pulse := fun hext => absurd (hext.symm.trans hint) (by decide) }
  rw [exec_iter, exec_iter, h.iterate_eq rfl (h.clkOut_eq fun _ => rfl) (h.led_eq rfl)]

/-- Settles O27: the knob is read through the step count alone. -/
theorem stepKnobActsInBandsOf128 : Obligations.StepKnobActsInBandsOf128 := by
  intro inp s a b hband
  have h : SameReads { inp with steps := a } { inp with steps := b } s s :=
    { ns := BitVec.eq_of_toNat_eq (by rw [nsOf_toNat, nsOf_toNat, hband]) }
  rw [exec_iter, exec_iter, h.iterate_eq rfl (h.clkOut_eq fun _ => rfl) (h.led_eq rfl)]

end

/-! 92_eei_decisions.md D18: the pin binding. -/

section
namespace Sys2Proof.Machine

/-- The state with another pin binding. -/
def State.withPinMap (m : Option PinMap) (s : State) : State := { s with cfg := { s.cfg with pinMap := m } }

theorem endIteration_withPinMap (m : Option PinMap) (s : State) :
    endIteration (s.withPinMap m) = (endIteration s).withPinMap m := rfl

/-- By its equation no operation but ITER reads or writes the pin binding. -/
theorem afterOp_withPinMap_of_not_iter (m : Option PinMap) {i : Instr} (hi : ∀ inp, i ≠ .iter inp) (s : State) :
    afterOp i (s.withPinMap m) = (afterOp i s).withPinMap m := by
  cases i with
  | iter inp => exact absurd rfl (hi inp)
  | sample _ | nsteps | caThr | sePrev0 | sePrev1 | sePrev2 | sePrev3 | gcThr0 | gcThr1 | gcThr2 | gcThr3
  | gcGate0 | gcGate1 | gcGate2 | gcGate3 | dmEnc | out => rfl
  | caMode | caDelay | caTickExt | caTickInt | caEdge | caCyc | caClkout | seAdv | dmDet | dmSel
  | seClear0 | seClear1 | seClear2 | seClear3 | seRec0 | seRec1 | seRec2 | seRec3 =>
    simp only [afterOp, exec, execCaMode, execCaDelay, execCaTickExt, execCaTickInt, execCaEdge, execCaCyc,
      execCaClkout, execSeAdv, execDmDet, execDmSel, execSeClear0, execSeClear1, execSeClear2, execSeClear3,
      execSeRec0, execSeRec1, execSeRec2, execSeRec3, caMode_eq, caDelay_eq, caTickExt_eq, caTickInt_eq,
      caEdge_eq, caCyc_eq, caClkout_eq, seAdv_eq, dmDet_eq, dmSel_eq, seClear_eq, seRec_eq]
    rfl

theorem iterate_withPinMap (m : Option PinMap) (inp : In) (s : State) :
    iterate inp (s.withPinMap m) = (iterate inp s).withPinMap m := by
  have hmode : caMode (nsteps (sample inp (s.withPinMap m))) =
      (caMode (nsteps (sample inp s))).withPinMap m :=
    afterOp_withPinMap_of_not_iter m (i := .caMode) (fun _ h => by cases h) (nsteps (sample inp s))
  rw [iterate_eq_applyOps, iterate_eq_applyOps, hmode, applyOps_comm (State.withPinMap m) fun i hi =>
    afterOp_withPinMap_of_not_iter m (not_iter_of_mem_operationsAfterMode hi), endIteration_withPinMap]

theorem afterOp_withPinMap (m : Option PinMap) (i : Instr) (s : State) :
    afterOp i (s.withPinMap m) = (afterOp i s).withPinMap m := by
  by_cases h : ∃ inp, i = .iter inp
  · obtain ⟨inp, rfl⟩ := h
    exact iterate_withPinMap m inp s
  · exact afterOp_withPinMap_of_not_iter m (not_exists.mp h) s

end Sys2Proof.Machine
end

section
open Sys2Proof Sys2Proof.Machine

/-- Settles O15: every operation commutes with a change of the pin binding. -/
theorem pinMapHasNoEffect : Obligations.PinMapHasNoEffect := by
  intro i s m
  have hpin := (exec_eq_next_afterOp (s.withPinMap m) i).trans
    (congrArg Host.Outcome.next (afterOp_withPinMap m i s))
  rw [State.withPinMap, State.withPinMap, afterOp_cfg] at hpin
  exact ⟨_, exec_eq_next_afterOp s i, hpin, afterOp_cfg s i⟩

end

/-! 40_iteration.md section 1, 42_step_engine_fsm.md section 1: one channel beside the others. -/

section
namespace Sys2Proof.Machine

variable {a b : In} {s t : State} {ch : Ch}

theorem seq_get_ext_memRead (h : ∀ i, s.memRead ch i = t.memRead ch i) : s.seq.get ch = t.seq.get ch := by
  apply BitVec.eq_of_getLsbD_eq
  intro i hi
  have hcell := h (BitVec.ofNat 5 i)
  rwa [State.memRead, State.memRead, BitVec.toNat_ofNat, Nat.mod_eq_of_lt (show i < 2 ^ 5 from hi)] at hcell

theorem iterDelay_congr (htempo : a.tempo = b.tempo) (hdelay : s.delay = t.delay)
    (hthr : s.thrCtr = t.thrCtr) (hcfg : s.cfg = t.cfg) : iterDelay a s = iterDelay b t := by
  rw [iterDelay, iterDelay, htempo, hdelay, hthr, hcfg]

theorem iterCount_congr (htick : tickOf a s = tickOf b t) (hsteps : a.steps = b.steps)
    (hcount : s.count = t.count) : iterCount a s = iterCount b t := by
  rw [iterCount, iterCount, htick, hsteps, hcount]

theorem iterCyc_congr (htick : tickOf a s = tickOf b t) (hcyc : s.cyc = t.cyc) :
    iterCyc a s = iterCyc b t := by
  rw [iterCyc, iterCyc, htick, hcyc]

/-- The cells of a channel depend on its button, its button memory and its cells. -/
theorem iterate_memRead_congr (hclear : a.clear = b.clear) (hbtn : a.btn.get ch = b.btn.get ch)
    (hcount : s.count = t.count) (hprev : s.pressedPrev.get ch = t.pressedPrev.get ch)
    (hseq : s.seq.get ch = t.seq.get ch) (i : BitVec 5) :
    (iterate a s).memRead ch i = (iterate b t).memRead ch i := by
  have hmem (i : BitVec 5) : s.memRead ch i = t.memRead ch i := by rw [State.memRead, State.memRead, hseq]
  rw [iterate_memRead, iterate_memRead, iterCell, iterCell, hmem, hmem, hclear, hbtn, hcount, hprev]

end Sys2Proof.Machine
end

section
open Sys2Proof Sys2Proof.Machine

/-- Settles O17: the shared clock is the same, and what a channel makes of it reads that channel alone. -/
theorem channelsAreIndependent : Obligations.ChannelsAreIndependent := by
  intro ch a b s s' hext hpulse hclear htempo hsteps hbtn hduty hpp hdelay hcyc hthr hcount hcfg hprev hseq
  have hd := iterDelay_congr htempo hdelay hthr hcfg
  have htick := tickOf_congr hext (fun _ => hpulse) hd hpp hcyc
  have hcount' := iterCount_congr htick hsteps hcount
  have hcell := iterate_memRead_congr hclear hbtn hcount hprev hseq
  refine ⟨_, _, exec_iter s a, exec_iter s' b, seq_get_ext_memRead hcell, ?gate, ?button, ?count⟩
  case gate => rw [iterate_gate, iterate_gate, hcell, hcount', iterCyc_congr htick hcyc, hduty, hd]
  case button => rw [iterate_pressedPrev, iterate_pressedPrev, hbtn]
  case count => rw [iterate_count, iterate_count, hcount']

end

/-! 43_gate_duty_calculator.md, consequences: the range of a threshold. -/

section
namespace Sys2Proof.Machine

/-- A duty reading is below 4096, so the quotient is below `delay`. -/
theorem threshold_lt (duty : Reading) {delay : Nat} (h : 2 ≤ delay) :
    max 1 (duty.toNat * delay / 4096) < delay := by
  have hprod : duty.toNat * delay ≤ 4095 * delay := Nat.mul_le_mul_right delay (Nat.le_of_lt_succ duty.isLt)
  omega

end Sys2Proof.Machine
end

section
open Sys2Proof Sys2Proof.Machine

/-- Settles O50: the threshold is the clamped quotient, and `delay` is in 129..4224. -/
theorem thresholdNeverFillsTheWindow : Obligations.ThresholdNeverFillsTheWindow := by
  intro ch s ⟨_, hmin, hmax, _, _⟩
  refine ⟨gcThr ch s, exec_gcThr ch s, ?_⟩
  rw [gcThr_wires_thr, PerCh.get_set_self, thrOf_toNat]
  exact ⟨Nat.le_max_left _ _, threshold_lt _ (by omega), threshold_le _ hmax⟩

end

/-! 30_encoding.md section 7: what the statements of a stimulus program expand to. -/

section
namespace Sys2Proof.Machine

theorem repeatExpand_zero (f : In → List Event × In) (i : In) : repeatExpand f 0 i = ([], i) := rfl

theorem repeatExpand_succ (f : In → List Event × In) (n : Nat) (i : In) : repeatExpand f (n + 1) i =
    ((f i).1 ++ (repeatExpand f n (f i).2).1, (repeatExpand f n (f i).2).2) := rfl

/-- A statement that leaves the sample it ran on repeats the same events. -/
theorem repeatExpand_of_fixed {f : In → List Event × In} {i : In} {e : Event} (h : f i = ([e], i)) (n : Nat) :
    repeatExpand f n i = (List.replicate n e, i) := by
  induction n with
  | zero => rfl
  | succ n ih => rw [repeatExpand_succ, h, ih, List.replicate_succ]; rfl

theorem expand_hold (n : Nat) (i : In) :
    (Stmt.hold n).expand i = (List.replicate n (.sample i.toWord), i) :=
  repeatExpand_of_fixed (f := expandIter {}) rfl n

/-- `n` iterations on a sample with `pulse` at one level, which the sample keeps if there is any. -/
theorem repeatExpand_pulse (p : Bool) (n : Nat) (i : In) :
    repeatExpand (expandIter { p := some p }) n i =
      (List.replicate n (.sample { i with pulse := p }.toWord),
        if 0 < n then { i with pulse := p } else i) := by
  have hfirst : expandIter { p := some p } i = ([.sample { i with pulse := p }.toWord], { i with pulse := p }) :=
    rfl
  have hagain : expandIter { p := some p } { i with pulse := p } =
      ([.sample { i with pulse := p }.toWord], { i with pulse := p }) := rfl
  cases n with
  | zero => rfl
  | succ n =>
    rw [repeatExpand_succ, hfirst, repeatExpand_of_fixed hagain, if_pos (Nat.succ_pos n), List.replicate_succ]
    rfl

theorem expand_pulse (h l : Nat) (i : In) : (Stmt.pulse h l).expand i =
    (List.replicate h (.sample { i with pulse := true }.toWord) ++
      List.replicate l (.sample { i with pulse := false }.toWord),
      if 0 < l then { i with pulse := false } else if 0 < h then { i with pulse := true } else i) := by
  have hlow : ∀ j : In, j = i ∨ j = { i with pulse := true } →
      ({ j with pulse := false } : In) = { i with pulse := false } := by
    rintro j (rfl | rfl) <;> rfl
  have hmid : (if 0 < h then { i with pulse := true } else i) = i ∨
      (if 0 < h then { i with pulse := true } else i) = { i with pulse := true } := by
    split
    · exact .inr rfl
    · exact .inl rfl
  simp only [Stmt.expand, repeatExpand_pulse, hlow _ hmid]

theorem expandAll_cons (st : Stmt) (prog : List Stmt) (i : In) : expandAll (st :: prog) i =
    ((st.expand i).1 ++ (expandAll prog (st.expand i).2).1, (expandAll prog (st.expand i).2).2) := rfl

theorem expandAll_append (p q : List Stmt) (i : In) : expandAll (p ++ q) i =
    ((expandAll p i).1 ++ (expandAll q (expandAll p i).2).1, (expandAll q (expandAll p i).2).2) := by
  induction p generalizing i with
  | nil => rfl
  | cons st p ih => rw [List.cons_append, expandAll_cons, ih, expandAll_cons, List.append_assoc]

theorem expandAll_singleton (st : Stmt) (i : In) : expandAll [st] i = st.expand i := by
  rw [expandAll_cons, expandAll, List.append_nil]

end Sys2Proof.Machine
end

section
open Sys2Proof Sys2Proof.Machine

/-- Settles O56: by the equations of the expansion; HOLD and PULSE by induction on their counts, a list of
statements by induction on the first part. -/
theorem stimulusStatementsExpand : Obligations.StimulusStatementsExpand :=
  ⟨fun f i => ⟨f.apply i, rfl, rfl, rfl, rfl, rfl, rfl, rfl, rfl⟩, fun _ => rfl, fun _ _ => rfl,
    fun _ _ _ => rfl, expand_hold, fun _ _ => rfl, fun _ _ => rfl, expand_pulse,
    expandAll_append, fun st i => ⟨rfl, expandAll_singleton st i⟩, fun _ => rfl⟩

end

/-! 40_iteration.md R81, R83: what SAMPLE latches and OUT presents. -/

section
namespace Sys2Proof.Machine

variable (s : State)

theorem btn_get_ofWord (w : InWord) (ch : Ch) : (In.ofWord w).btn.get ch = w.getLsbD (3 + ch.num) := by
  cases ch <;> rfl

theorem duty_get_ofWord (w : InWord) (ch : Ch) :
    (In.ofWord w).duty.get ch = w.extractLsb' (31 + 12 * ch.num) 12 := by
  cases ch <;> rfl

theorem extractLsb'_twelve_toNat (w : InWord) (lo : Nat) :
    (w.extractLsb' lo 12).toNat = w.toNat / 2 ^ lo % 4096 := by
  rw [BitVec.extractLsb'_toNat, Nat.shiftRight_eq_div_pow]

theorem exec_sample (inp : In) : exec (.sample inp) s = .next (sample inp s) := rfl

/-- SAMPLE writes the latched sample and nothing else. -/
theorem sample_frame (inp : In) :
    { sample inp s with wires := { (sample inp s).wires with inp := s.wires.inp } } = s := rfl

theorem exec_out : exec .out s = .next (present s) := rfl

/-- OUT writes the word on the pins and nothing else. -/
theorem present_frame : { present s with out := s.out } = s := rfl

end Sys2Proof.Machine
end

section
open Sys2Proof Sys2Proof.Machine

/-- Settles O35: the fields are those of `In.ofWord`, bit by bit or as quotient and remainder. -/
theorem sampleLatchesTheFieldsOfTheWord : Obligations.SampleLatchesTheFieldsOfTheWord := by
  intro w s
  refine ⟨sample (In.ofWord w) s, exec_sample s _, rfl, rfl, rfl, fun ch => ?_, ?_, ?_, fun ch => ?_,
    sample_frame s _⟩
  · exact btn_get_ofWord w ch
  · exact extractLsb'_twelve_toNat w 7
  · exact extractLsb'_twelve_toNat w 19
  · exact (congrArg BitVec.toNat (duty_get_ofWord w ch)).trans (extractLsb'_twelve_toNat w _)

/-- Settles O55: bit by bit of the word of the output registers. -/
theorem outPresentsTheOutputRegisters : Obligations.OutPresentsTheOutputRegisters := by
  intro s
  refine ⟨present s, exec_out s, fun p => ?led, fun ch => ?gate, ?clkOut, ?clkDir, present_frame s⟩
  case led => exact Out.getLsbD_toWord_led s.outFields p.isLt
  case gate => exact Out.getLsbD_toWord_gate s.outFields ch
  case clkOut => exact Out.getLsbD_toWord_clkOut s.outFields
  case clkDir => exact Out.getLsbD_toWord_clkDir s.outFields

end

/-! 41_clock_arbiter.md R91, R92, R96, R97, R99, 42_step_engine_fsm.md R112, 44_display_mux_encoder.md R136:
the operations of the clock arbiter that need no pattern, SE.PREV and DM.SEL, each alone. -/

section
namespace Sys2Proof.Machine

variable (s : State) (ch : Ch)

theorem exec_caThr : exec .caThr s = .next (caThr s) := rfl
theorem exec_caDelay : exec .caDelay s = .next (caDelay s) := rfl
theorem exec_caEdge : exec .caEdge s = .next (caEdge s) := rfl
theorem exec_caCyc : exec .caCyc s = .next (caCyc s) := rfl
theorem exec_caClkout : exec .caClkout s = .next (caClkout s) := rfl
theorem exec_dmSel : exec .dmSel s = .next (dmSel s) := rfl

theorem caThr_wires_recompute : (caThr s).wires.recompute = recomputeOf s.cfg.pDelay s.thrCtr := rfl

theorem caThr_thrCtr : (caThr s).thrCtr = s.thrCtr + 1#9 := rfl

/-- CA.THR writes the throttle counter and the wire `recompute` and nothing else. -/
theorem caThr_frame :
    { caThr s with thrCtr := s.thrCtr,
                   wires := { (caThr s).wires with recompute := s.wires.recompute } } = s := rfl

theorem caDelay_delay_toNat : (caDelay s).delay.toNat =
    if s.wires.recompute then 4224 - s.wires.inp.tempo.toNat else s.delay.toNat := by
  rw [caDelay_eq, setDelay_delay, apply_ite BitVec.toNat, delayOf_toNat]

/-- CA.DELAY writes `delay` and nothing else. -/
theorem caDelay_frame : { caDelay s with delay := s.delay } = s := by
  rw [caDelay_eq]; rfl

theorem caEdge_pulsePrev : (caEdge s).pulsePrev = if s.modeExt then s.wires.inp.pulse else s.pulsePrev := by
  rw [caEdge_eq, setPulsePrev_pulsePrev]

/-- CA.EDGE writes the edge memory and nothing else. -/
theorem caEdge_frame : { caEdge s with pulsePrev := s.pulsePrev } = s := by
  rw [caEdge_eq]; rfl

theorem caCyc_cyc_toNat : (caCyc s).cyc.toNat = if s.wires.tick then 0 else min (s.cyc.toNat + 1) 8191 := by
  rw [caCyc_eq, setCyc_cyc, apply_ite BitVec.toNat, sat13_toNat]
  rfl

/-- CA.CYC writes `cyc` and nothing else. -/
theorem caCyc_frame : { caCyc s with cyc := s.cyc } = s := by
  rw [caCyc_eq]; rfl

theorem caClkout_clkOut : (caClkout s).clkOut =
    if s.modeExt then s.clkOut else decide (s.cyc.toNat < s.delay.toNat / 2) := by
  rw [caClkout_eq, setClkOut_clkOut, clkOutOf_halfWindow]

/-- CA.CLKOUT writes `clk_out` and nothing else. -/
theorem caClkout_frame : { caClkout s with clkOut := s.clkOut } = s := by
  rw [caClkout_eq]; rfl

theorem sePrev_pressedPrev : (sePrev ch s).pressedPrev = s.pressedPrev.set ch (s.wires.inp.btn.get ch) := rfl

/-- SE.PREV writes the button memory and nothing else. -/
theorem sePrev_frame : { sePrev ch s with pressedPrev := s.pressedPrev } = s := rfl

/-! DM.SEL in its two cases. -/

theorem dmSel_of_pos (h : 0 < s.dispCd.toNat) :
    (dmSel s).dispCd.toNat + 1 = s.dispCd.toNat ∧ (dmSel s).wires.val = s.wires.ns.setWidth 5 := by
  have hpos : 0#11 < s.dispCd := h
  have hlt := s.dispCd.isLt
  rw [dmSel_eq, setWires_dispCd, setWires_wires, setDispCd_dispCd, if_pos hpos, BitVec.toNat_sub,
    BitVec.toNat_ofNat]
  exact ⟨by omega, if_pos hpos⟩

theorem dmSel_of_zero (h : s.dispCd.toNat = 0) :
    (dmSel s).dispCd = s.dispCd ∧ (dmSel s).wires.val = s.count := by
  have hzero : ¬ 0#11 < s.dispCd := fun hpos => Nat.ne_of_gt hpos h
  rw [dmSel_eq, setWires_dispCd, setWires_wires, setDispCd_dispCd, if_neg hzero]
  exact ⟨rfl, if_neg hzero⟩

/-- DM.SEL writes `disp_cd` and the wire `val` and nothing else. -/
theorem dmSel_frame :
    { dmSel s with dispCd := s.dispCd, wires := { (dmSel s).wires with val := s.wires.val } } = s := by
  rw [dmSel_eq]; rfl

end Sys2Proof.Machine
end

section
open Sys2Proof Sys2Proof.Machine

/-- Settles O38: the wire is `recomputeOf`, and the counter's width is 9 bits. -/
theorem throttleCounterCountsModulo512 : Obligations.ThrottleCounterCountsModulo512 := by
  intro s
  refine ⟨caThr s, exec_caThr s, ?recompute, ?counter, caThr_frame s⟩
  case recompute => rw [caThr_wires_recompute, recomputeOf_eq_true_iff]
  case counter => rw [caThr_thrCtr, BitVec.toNat_add]; rfl

/-- Settles O39: `delayOf` never wraps, a reading being below 4096. -/
theorem delayIsTheBaseLessTheTempo : Obligations.DelayIsTheBaseLessTheTempo :=
  fun s => ⟨caDelay s, exec_caDelay s, caDelay_delay_toNat s, caDelay_frame s⟩

/-- Settles O42: in internal mode the operation writes the edge memory back. -/
theorem edgeMemoryFollowsThePulseInExternalMode : Obligations.EdgeMemoryFollowsThePulseInExternalMode :=
  fun s => ⟨caEdge s, exec_caEdge s, caEdge_pulsePrev s, caEdge_frame s⟩

/-- Settles O43: without a tick the counter is `sat13` of one more. -/
theorem tickClearsTheCycleCounter : Obligations.TickClearsTheCycleCounter :=
  fun s => ⟨caCyc s, exec_caCyc s, caCyc_cyc_toNat s, caCyc_frame s⟩

/-- Settles O44: the comparison with the half window, which is `delay / 2` without loss. -/
theorem clockOutIsHighInTheFirstHalf : Obligations.ClockOutIsHighInTheFirstHalf :=
  fun s => ⟨caClkout s, exec_caClkout s, caClkout_clkOut s, caClkout_frame s⟩

/-- Settles O47: the operation sets the channel's entry alone. -/
theorem buttonMemoryFollowsTheButton : Obligations.ButtonMemoryFollowsTheButton := by
  intro ch s
  refine ⟨sePrev ch s, exec_sePrev ch s, ?button, fun ch' hne => ?otherButton, sePrev_frame s ch⟩
  case button => rw [sePrev_pressedPrev, PerCh.get_set_self]
  case otherButton => rw [sePrev_pressedPrev, PerCh.get_set_ne _ _ hne]

/-- Settles O53: by the two cases of DM.SEL. -/
theorem displaySelectsCountOrStepCount : Obligations.DisplaySelectsCountOrStepCount := by
  intro s
  refine ⟨dmSel s, exec_dmSel s, fun hpos => ?running, fun hzero => ?finished, dmSel_frame s⟩
  case running =>
    obtain ⟨hcd, hval⟩ := dmSel_of_pos s hpos
    exact ⟨hcd, by rw [hval, BitVec.toNat_setWidth]⟩
  case finished =>
    obtain ⟨hcd, hval⟩ := dmSel_of_zero s hzero
    exact ⟨by rw [hcd, hzero], hval⟩

end
